-- ==== Sys2Proof/Word.lean ====
section
/-! DEFINITION. The two word sizes of the FIE (spec/00_scope.md R7, R8). -/

namespace Sys2Proof

/-- A byte, 0 to 255 (R8). -/
abbrev Byte := BitVec 8

/-- A u32: a register, a bus word, an integer field (R7, R112). -/
abbrev Word := BitVec 32

end Sys2Proof
end

