-- ==== Sys2Proof/Config.lean ====
section
/-! DEFINITION. What an implementation of the FIE fixes (00_scope.md R5) and the free values the spec leaves open. -/

namespace Sys2Proof

/-- The implementation parameters of R5. LATENCY is not a value here: it is the engine's place in the
event list (notes/assumptions/2.md). -/
structure Params where
  /-- BUF_SIZE: bytes in BUF. -/
  bufSize : Nat
  /-- KEY_SIZE: bytes in KEY. -/
  keySize : Nat
  /-- BASE: the bus address of register offset 0 (OPEN in the spec). -/
  base : Nat
  /-- IRQ_LINE: the interrupt-controller input the IRQ output drives (OPEN in the spec). -/
  irqLine : Nat
deriving DecidableEq, Repr

/-- The defaults of R5 for BUF_SIZE and KEY_SIZE. DESIGN CHOICE, unsafe (notes/assumptions/1.md): R5 leaves
BASE and IRQ_LINE open, and 0 stands for both here. -/
def Params.default : Params := { bufSize := 4096, keySize := 256, base := 0, irqLine := 0 }

/-- Free value (20_memory.md R53, 70_reset_and_hazards.md R181): the k-th unspecified bus word. It has no body,
so a statement that holds of the model holds whatever it is (notes/assumptions/6.md). Safe. -/
opaque Config.freeWord : Nat → Word

/-- Free value (R183, R190): the k-th unspecified byte (notes/assumptions/5.md, notes/assumptions/6.md). Safe. -/
opaque Config.freeByte : Nat → Byte

end Sys2Proof
end

