-- ==== Sys2Proof/Machine/State.lean ====
section
/-! DEFINITION. The state of the FIE (spec/10_state.md), the events that drive it, and the state after reset (R45). -/

namespace Sys2Proof.Machine

/-- The result codes of 60_exceptions.md R161; no other code is ever produced (U10). -/
inductive Code where
  | ok
  | checksumInvalid
  | frameExpired
  | lengthMismatch
  | tagLengthMismatch
  | authenticationFailed
  | formatError
  | rangeError
  | overlapError
  | illegalCommand
  | configError
deriving DecidableEq, Repr

/-- Five hash words H0 to H4: the SHA-1 state (R129) and the registers DIGEST0 to DIGEST4 (R39). -/
structure Digest where
  h0 : Word
  h1 : Word
  h2 : Word
  h3 : Word
  h4 : Word
deriving DecidableEq, Repr

/-- The latched operand set L (10_state.md R33). -/
structure Latch where
  op : Byte
  rsv : BitVec 24
  src : Word
  len : Word
  dst : Word
  now : Word
  keyLen : Word
  hash : BitVec 2
deriving DecidableEq, Repr

/-- What can happen to the FIE (R91, R165, R181). A width is in bits; an address is a bus address. -/
inductive Event where
  /-- A host write of `data` (R10, R47). -/
  | write (addr width : Nat) (data : Word)
  /-- A host read (R10, R47). -/
  | read (addr width : Nat)
  /-- The engine takes its perform step if a command is in flight (R94, R196). -/
  | engineTurn
  /-- The reset input is asserted (R181). -/
  | assertReset
  /-- The reset input is released. -/
  | releaseReset
deriving DecidableEq, Repr

/-- What the bus answers to the latest host access (R47, R60). -/
inductive Response where
  /-- No host access yet. -/
  | none
  /-- A write reached the FIE (whether or not it was dropped). -/
  | written
  /-- A read returned this word. -/
  | data (w : Word)
  /-- The access was rejected (R47, R171). -/
  | busError
  /-- The address is not in the register space of R46: the FIE takes no part. -/
  | notSelected
deriving DecidableEq, Repr

/-- BUF or KEY: (offset, byte) cells, offsets strictly rising; a byte that is not listed was not written since the
hardware reset and has no value (R190). -/
abbrev Memory := List Host.Cell

/-- The whole state: the registers of 10_state.md, the latched operands, BUF and KEY, the reset input, the
parameters of R5, and three fields of the model's own (`inputs`, `resp`, `draws`). -/
structure State where
  /-- The parameters of R5 (notes/assumptions/1.md); no step changes them. -/
  params : Params
  /-- CTRL.IE (R21). -/
  ie : Bool
  /-- CTRL.KEYLOCK (R23). -/
  keyLock : Bool
  /-- CTRL.HASH_SEL (R22). -/
  hashSel : BitVec 2
  /-- STATUS.BUSY (R25): a command is in flight (R43). -/
  busy : Bool
  /-- STATUS.DONE (R26). -/
  done : Bool
  /-- STATUS.BUSY_WR (R27). -/
  busyWr : Bool
  /-- STATUS.LOCK_WR (R28). -/
  lockWr : Bool
  /-- STATUS.CODE (R29). -/
  code : Code
  /-- SRC (R31). -/
  src : Word
  /-- LEN (R31). -/
  len : Word
  /-- DST (R31). -/
  dst : Word
  /-- NOW (R32). -/
  now : Word
  /-- KEYLEN (R34). -/
  keyLen : Word
  /-- OUTOFF (R35). -/
  outOff : Word
  /-- OUTLEN (R35). -/
  outLen : Word
  /-- TS (R36). -/
  ts : Word
  /-- CRC_STATE (R37); CRC_RESULT is a function of it (R38). -/
  crcState : Word
  /-- DIGEST0 to DIGEST4 (R39). -/
  digest : Digest
  /-- The latched operand set L (R33). -/
  latch : Latch
  /-- BUF (R40). -/
  buf : Memory
  /-- KEY (R41). -/
  key : Memory
  /-- The reset input is asserted (R181). -/
  resetLine : Bool
  /-- The model's own: the events still to come, first one first (notes/assumptions/2.md). -/
  inputs : List Event
  /-- The model's own: the bus response of the latest host access (notes/assumptions/7.md). -/
  resp : Response
  /-- The model's own: how many unspecified values were drawn (notes/assumptions/6.md). -/
  draws : Nat
deriving DecidableEq, Repr

/-- Why a step can stop. Both are the outcome R190 asks for: a result that is not determined. -/
inductive Fault where
  /-- Raised by a command whose input range in BUF holds a byte never written since the hardware reset
  (R190, U1). Safe: nothing can be proved of the run after it. -/
  | unwrittenBuf
  /-- Raised by a command that uses a KEY byte never written since the hardware reset (R190, U2). Safe. -/
  | unwrittenKey
deriving DecidableEq, Repr

/-- Instructions without a meaning. No arm of `exec` answers it: every command is modelled. -/
inductive Refusal where
  /-- Raised by nothing in this model. Safe. -/
  | notModelled (mnemonic : String)
deriving DecidableEq, Repr

/-- What a step answers. -/
abbrev Result := Host.Outcome State Fault Refusal

/-- DIGEST0 to DIGEST4 at 0 (R45). -/
def Digest.zero : Digest := { h0 := 0, h1 := 0, h2 := 0, h3 := 0, h4 := 0 }

/-- L with all fields 0 (R33, R45). -/
def Latch.zero : Latch :=
  { op := 0, rsv := 0, src := 0, len := 0, dst := 0, now := 0, keyLen := 0, hash := 0 }

/-- The machine right after a hardware reset (10_state.md R45, 70_reset_and_hazards.md R181), the reset input
released. `params`, `inputs`, `resp` and `draws` are not the spec's: DESIGN CHOICE
(notes/assumptions/1.md, 2.md, 6.md, 7.md). -/
def State.reset : State where
  params := Params.default
  ie := false
  keyLock := false
  hashSel := 0
  busy := false
  done := false
  busyWr := false
  lockWr := false
  code := .ok
  src := 0
  len := 0
  dst := 0
  now := 0
  keyLen := 0
  outOff := 0
  outLen := 0
  ts := 0
  crcState := 0xFFFFFFFF
  digest := Digest.zero
  latch := Latch.zero
  buf := []
  key := []
  resetLine := false
  inputs := []
  resp := .none
  draws := 0

end Sys2Proof.Machine
end

