-- ==== Sys2Proof/Machine/Bytes.lean ====
section
/-! DEFINITION. Byte sequences and the big-endian integer encoding (R8, R49, R110, R111), and rotation (R7). -/

namespace Sys2Proof.Machine

/-- `b[i..j)` of R8: empty when j ≤ i. -/
def slice (b : List Byte) (i j : Nat) : List Byte := (b.drop i).take (j - i)

/-- `be32(v)`: 4 bytes, most significant first (R110). -/
def be32 (v : Word) : List Byte :=
  [v.extractLsb' 24 8, v.extractLsb' 16 8, v.extractLsb' 8 8, v.extractLsb' 0 8]

/-- A u32 from its four bytes, most significant first (R111). -/
def word4 (b0 b1 b2 b3 : Byte) : Word := b0 ++ b1 ++ b2 ++ b3

/-- `dec32(b)`: none is the source's Insufficient; bytes after the fourth are ignored (R111). -/
def dec32 : List Byte → Option Word
  | b0 :: b1 :: b2 :: b3 :: _ => some (word4 b0 b1 b2 b3)
  | _ => none

/-- `dec32(b[i..i+4))` on a command path, where the four bytes are there (R111, R163), so that the default is
never taken. -/
def field32 (b : List Byte) (i : Nat) : Word := (dec32 (slice b i (i + 4))).getD 0

/-- `be64(v)` of R126: 8 bytes, most significant first. -/
def be64 (v : BitVec 64) : List Byte :=
  be32 (v.extractLsb' 32 32) ++ be32 (v.extractLsb' 0 32)

/-- `rol32(v, n)` of R7. -/
def rol32 (v : Word) (n : Nat) : Word := v.rotateLeft n

/-- A natural number as the u32 written to a register or a field; every use has its value below 2^32 (R112). -/
def u32 (n : Nat) : Word := BitVec.ofNat 32 n

end Sys2Proof.Machine
end

