-- ==== Sys2Proof/Machine/Memory.lean ====
section
/-! DEFINITION. Reading and writing BUF and KEY (R40, R41), byte by byte. -/

namespace Sys2Proof.Machine

/-- The canonical form: offsets strictly rising. No value stands for an unlisted byte, so no listed one equals it. -/
abbrev Memory.wf (m : Memory) : Prop :=
  m.Pairwise fun x y => x.1 < y.1

/-- The byte at an offset; none where nothing was written since the hardware reset (R190). -/
def Memory.read : Memory → Nat → Option Byte
  | [], _ => none
  | (k, v) :: t, a => if k = a then some v else Memory.read t a

/-- Store one byte, keeping the canonical form. -/
def Memory.write : Memory → Nat → Byte → Memory
  | [], a, b => [(a, b)]
  | (k, v) :: t, a, b =>
    if a < k then (a, b) :: (k, v) :: t
    else if a = k then (a, b) :: t
    else (k, v) :: Memory.write t a b

/-- MemRead and KeyRead of R9: the `n` bytes from `off`, none if one of them has no value (R190). -/
def Memory.readBytes (m : Memory) (off : Nat) : Nat → Option (List Byte)
  | 0 => some []
  | n + 1 =>
    match m.read off, m.readBytes (off + 1) n with
    | some b, some bs => some (b :: bs)
    | _, _ => none

/-- MemWrite of R9: store the bytes from `off` on. -/
def Memory.writeBytes (m : Memory) (off : Nat) : List Byte → Memory
  | [] => m
  | b :: bs => Memory.writeBytes (m.write off b) (off + 1) bs

end Sys2Proof.Machine
end

