-- ==== Sys2Proof/Syntax.lean ====
section
/-! DEFINITION. The commands of the FIE, one constructor for each row of spec/opcode_table.json (R76).
A command word carries no operand field (R73), so no constructor has an argument. -/

namespace Sys2Proof

/-- The ten commands (30_encoding.md R76). -/
inductive Instr where
  /-- NOP, 0x00 (R102). -/
  | nop
  /-- CRC_INIT, 0x01 (R119). -/
  | crcInit
  /-- CRC_UPDATE, 0x02 (R120). -/
  | crcUpdate
  /-- CRC32, 0x03 (R121). -/
  | crc32
  /-- HMAC, 0x10 (R133). -/
  | hmac
  /-- HMAC_HEX, 0x11 (R134). -/
  | hmacHex
  /-- PACK_CSUM, 0x20 (R142). -/
  | packCsum
  /-- UNPACK_CSUM, 0x21 (R143). -/
  | unpackCsum
  /-- PACK_AUTH, 0x30 (R152). -/
  | packAuth
  /-- UNPACK_AUTH, 0x31 (R153). -/
  | unpackAuth
deriving DecidableEq, Repr

end Sys2Proof
end

