-- ==== Sys2Proof/WellFormed.lean ====
section
/-! DEFINITION. What the spec calls well formed: a command word (R72, R77), a host access (R47), the parameters (R5). -/

namespace Sys2Proof

/-- The opcode assigned to each command (30_encoding.md R76). -/
def assignedOpcodes : List Byte := [0x00, 0x01, 0x02, 0x03, 0x10, 0x11, 0x20, 0x21, 0x30, 0x31]

/-- R72, R77: a command word is legal iff RSV (bits 31:8) is 0 and OPCODE (bits 7:0) is assigned. -/
def legalWord (w : Word) : Bool :=
  w.extractLsb' 8 24 == 0 && assignedOpcodes.contains (w.extractLsb' 0 8)

/-- R47: a host access is 32 bits wide, at an offset that is a multiple of 4. -/
def accessOk (width off : Nat) : Bool :=
  width == 32 && off % 4 == 0

/-- The constraints of R5 on the parameters: BUF_SIZE a multiple of 4 in 64 .. 0xF000, KEY_SIZE a multiple of 4
in 4 .. 0xF00, BASE 64 KiB aligned. -/
def Params.wf (p : Params) : Bool :=
  p.bufSize % 4 == 0 && 64 ≤ p.bufSize && p.bufSize ≤ 0xF000 &&
    (p.keySize % 4 == 0 && 4 ≤ p.keySize && p.keySize ≤ 0xF00) && p.base % 0x10000 == 0

end Sys2Proof
end

