-- ==== Sys2Proof/Decode.lean ====
section
/-! DEFINITION. The decoder and the encoder of command words (30_encoding.md R71, R72, R76, R77, R90). -/

namespace Sys2Proof

/-- Why a command word is no command (R77, R78). The machine answers both with IllegalCommand. -/
inductive DecodeError where
  /-- RSV, bits 31:8, is not 0. -/
  | reservedBits
  /-- RSV is 0 and OPCODE is one of the reserved opcodes of R78. -/
  | reservedOpcode
deriving DecidableEq, Repr

/-- One row of the opcode table: a word selects it when `word and mask = pattern` (R90). -/
structure OpcodeRow where
  pattern : Word
  mask : Word
  instr : Instr
deriving DecidableEq, Repr

/-- spec/opcode_table.json, row by row (R76, R90). -/
def opcodeTable : List OpcodeRow := [
  ⟨0x00000000, 0xFFFFFFFF, .nop⟩,
  ⟨0x00000001, 0xFFFFFFFF, .crcInit⟩,
  ⟨0x00000002, 0xFFFFFFFF, .crcUpdate⟩,
  ⟨0x00000003, 0xFFFFFFFF, .crc32⟩,
  ⟨0x00000010, 0xFFFFFFFF, .hmac⟩,
  ⟨0x00000011, 0xFFFFFFFF, .hmacHex⟩,
  ⟨0x00000020, 0xFFFFFFFF, .packCsum⟩,
  ⟨0x00000021, 0xFFFFFFFF, .unpackCsum⟩,
  ⟨0x00000030, 0xFFFFFFFF, .packAuth⟩,
  ⟨0x00000031, 0xFFFFFFFF, .unpackAuth⟩]

/-- Decode a command word: the row it selects, or the reason there is none (R77, R90). -/
def decodeWord (w : Word) : Except DecodeError Instr :=
  match opcodeTable.find? (fun r => w &&& r.mask == r.pattern) with
  | some r => .ok r.instr
  | none => .error (if w.extractLsb' 8 24 == 0 then .reservedOpcode else .reservedBits)

/-- The OPCODE field of each command (R76). -/
def Instr.opcode : Instr → Byte
  | .nop => 0x00
  | .crcInit => 0x01
  | .crcUpdate => 0x02
  | .crc32 => 0x03
  | .hmac => 0x10
  | .hmacHex => 0x11
  | .packCsum => 0x20
  | .unpackCsum => 0x21
  | .packAuth => 0x30
  | .unpackAuth => 0x31

/-- The command word of a command: RSV = 0 above its OPCODE (R72, R76). -/
def encode (i : Instr) : Word :=
  (0 : BitVec 24) ++ i.opcode

/-- The instruction the decoder reads from the command word whose low `nbits` bits are `w`; every command word
is 32 bits (R71), so more bits than that are no command word. -/
def decodeTableWord (nbits w : Nat) : Option Instr :=
  if nbits ≤ 32 then
    match decodeWord (BitVec.ofNat 32 (w % 2 ^ nbits)) with
    | .ok i => some i
    | .error _ => none
  else none

end Sys2Proof
end

