-- ==== Sys2Proof/Machine/Operands.lean ====
section
/-! DEFINITION. The operands of a command: the latched registers as natural numbers (R33, R73, R112), the command
classes (R95) and the range and overlap tests (R96, R97). -/

namespace Sys2Proof.Machine

/-- L.SRC as a natural number (R73). -/
abbrev State.srcOff (s : State) : Nat := s.latch.src.toNat
/-- L.LEN as a natural number (R73). -/
abbrev State.srcLen (s : State) : Nat := s.latch.len.toNat
/-- L.DST as a natural number (R73). -/
abbrev State.dstOff (s : State) : Nat := s.latch.dst.toNat
/-- L.KEYLEN as a natural number (R73). -/
abbrev State.keyCount (s : State) : Nat := s.latch.keyLen.toNat

/-- USES_KEY (R95 b). -/
def usesKey : Instr → Bool
  | .hmac | .hmacHex | .packAuth | .unpackAuth => true
  | .nop | .crcInit | .crcUpdate | .crc32 | .packCsum | .unpackCsum => false

/-- READS_SRC (R95 c). -/
def readsSrc : Instr → Bool
  | .crcUpdate | .crc32 | .hmac | .hmacHex | .packCsum | .unpackCsum | .packAuth | .unpackAuth => true
  | .nop | .crcInit => false

/-- WRITES_DST (R95 d). -/
def writesDst : Instr → Bool
  | .hmacHex | .packCsum | .packAuth => true
  | .nop | .crcInit | .crcUpdate | .crc32 | .hmac | .unpackCsum | .unpackAuth => false

/-- `out_len` (R95 d); 0 for a command that writes no output range. -/
def outputLen (i : Instr) (n : Nat) : Nat :=
  match i with
  | .hmacHex => 40
  | .packCsum => n + 12
  | .packAuth => n + 52
  | .nop | .crcInit | .crcUpdate | .crc32 | .hmac | .unpackCsum | .unpackAuth => 0

/-- `range_ok` on unbounded naturals (R96). -/
def rangeOk (p : Params) (off n : Nat) : Bool := off + n ≤ p.bufSize

/-- `overlap` (R97): the ranges [a, a+n) and [b, b+m) share a byte. -/
def overlap (a n b m : Nat) : Bool := 0 < n && 0 < m && a < b + m && b < a + n

end Sys2Proof.Machine
end

