-- ==== Sys2Proof/Machine/Ops.lean ====
section
/-! DEFINITION. The operations every command shares: accept (R92), the common checks (R94, R164), completion (R100),
which is also how a failure ends (R166: the FIE takes no trap), and the resets (R181 to R183). -/

namespace Sys2Proof.Machine

/-- The command word in flight: RSV above OP (R33, R72). -/
def State.commandWord (s : State) : Word := s.latch.rsv ++ s.latch.op

/-- Accept of command word `w` (40_command_lifecycle.md R92). -/
def State.accept (s : State) (w : Word) : State :=
  { s with
    latch :=
      { op := w.extractLsb' 0 8
        rsv := w.extractLsb' 8 24
        src := s.src
        len := s.len
        dst := s.dst
        now := s.now
        keyLen := s.keyLen
        hash := s.hashSel }
    done := false
    busy := true }

/-- Completion with code `c` and output `(o, n)` (R100). -/
def State.complete (s : State) (c : Code) (o n : Word) : State :=
  { s with
    code := c
    outOff := if c = .ok then o else 0
    outLen := if c = .ok then n else 0
    busy := false
    done := true }

/-- `raise Code()` (R9): completion with a failure code, the one way a failure is taken (R166). -/
def State.raise (s : State) (c : Code) : Result := .next (s.complete c 0 0)

/-- `complete()` (R9) with the output `(o, n)` a command's rule names. -/
def State.finish (s : State) (o n : Word) : Result := .next (s.complete .ok o n)

/-- The completion of a command word that is no command (R77, R94 line 1). -/
def State.raiseIllegal (s : State) : Result := s.raise .illegalCommand

/-- The common checks of R94 after `legal`, in the order of R164: the first failing one's code. -/
def commonCheck (i : Instr) (s : State) : Option Code :=
  if usesKey i && s.latch.hash != 0 then some .configError
  else if usesKey i && decide (s.params.keySize < s.keyCount) then some .rangeError
  else if readsSrc i && !rangeOk s.params s.srcOff s.srcLen then some .rangeError
  else if writesDst i && !rangeOk s.params s.dstOff (outputLen i s.srcLen) then some .rangeError
  else if writesDst i && overlap s.srcOff s.srcLen s.dstOff (outputLen i s.srcLen) then some .overlapError
  else none

/-- The perform step of R94: the common checks, then the command's own pseudocode. -/
def checked (i : Instr) (s : State) (run : Result) : Result :=
  match commonCheck i s with
  | some c => s.raise c
  | none => run

/-- `MemRead(L.SRC, L.LEN)` given to the rest of the command; a byte without a value faults (R9, R190). -/
def State.withInput (s : State) (run : List Byte → Result) : Result :=
  match s.buf.readBytes s.srcOff s.srcLen with
  | some bs => run bs
  | none => .fault .unwrittenBuf

/-- `KeyRead(L.KEYLEN)` given to the rest of the command; a byte without a value faults (R9, R190). -/
def State.withKey (s : State) (run : List Byte → Result) : Result :=
  match s.key.readBytes 0 s.keyCount with
  | some k => run k
  | none => .fault .unwrittenKey

/-- The next `n` free bytes. -/
def freeBytes (draw : Nat) : Nat → List Byte
  | 0 => []
  | n + 1 => Config.freeByte draw :: freeBytes (draw + 1) n

/-- The command in flight is abandoned (R183): if it writes an output range and its common checks would have
passed, that range holds unspecified bytes afterwards. -/
def State.abandon (s : State) : State :=
  match decodeWord s.commandWord with
  | .ok i =>
    if writesDst i && (commonCheck i s).isNone then
      { s with
        buf := s.buf.writeBytes s.dstOff (freeBytes s.draws (outputLen i s.srcLen))
        draws := s.draws + outputLen i s.srcLen }
    else s
  | .error _ => s

/-- The registers a soft reset resets (R45 last column, R182). -/
def State.clearRegisters (s : State) : State :=
  { s with
    ie := false
    hashSel := 0
    busy := false
    done := false
    busyWr := false
    lockWr := false
    code := .ok
    src := 0
    len := 0
    dst := 0
    now := 0
    outOff := 0
    outLen := 0
    ts := 0
    crcState := 0xFFFFFFFF
    digest := Digest.zero
    latch := Latch.zero }

/-- Soft reset (R182); a command in flight is abandoned (R183). -/
def State.softReset (s : State) : State :=
  if s.busy then s.abandon.clearRegisters else s.clearRegisters

/-- The reset input is asserted (R181): every state of R45 takes its hardware reset value. The parameters, the
events to come, the last bus response and the count of draws are no state of R45. -/
def State.hardwareReset (s : State) : State :=
  { State.reset with
    params := s.params
    resetLine := true
    inputs := s.inputs
    resp := s.resp
    draws := s.draws }

end Sys2Proof.Machine
end

