-- ==== Sys2Proof/Machine/Crc.lean ====
section
/-! DEFINITION. The CRC-32 engine (41_crc32.md): the update function (R116 to R118) and CRC_INIT, CRC_UPDATE, CRC32. -/

namespace Sys2Proof.Machine

/-- The bit-reversed generator polynomial (R116). -/
def crcPoly : Word := 0xEDB88320

/-- The initial value of the running state (R116). -/
def crcInitial : Word := 0xFFFFFFFF

/-- One bit of `crc_byte` (R117). -/
def crcShift (c : Word) : Word :=
  if c.getLsbD 0 then (c >>> 1) ^^^ crcPoly else c >>> 1

/-- `n` bits of `crc_byte` (R117). -/
def crcShifts : Nat → Word → Word
  | 0, c => c
  | n + 1, c => crcShifts n (crcShift c)

/-- `crc_byte` (R117): the byte into bits [7:0], then eight bits. -/
def crcByte (c : Word) (b : Byte) : Word := crcShifts 8 (c ^^^ b.setWidth 32)

/-- `crc_bytes` (R117). -/
def crcBytes (c : Word) : List Byte → Word
  | [] => c
  | b :: r => crcBytes (crcByte c b) r

/-- CRC_RESULT for a running state: its complement, the final XOR of R116 (R38, R118). -/
def crcResult (c : Word) : Word := ~~~c

/-- `CRC32(d)` (R118). -/
def crc32Of (d : List Byte) : Word := crcResult (crcBytes crcInitial d)

/-- CRC_INIT (R119). -/
def execCrcInit (s : State) : Result :=
  checked .crcInit s ({ s with crcState := crcInitial }.finish 0 0)

/-- CRC_UPDATE (R120). -/
def execCrcUpdate (s : State) : Result :=
  checked .crcUpdate s (s.withInput fun input =>
    { s with crcState := crcBytes s.crcState input }.finish 0 0)

/-- CRC32 (R121). -/
def execCrc32 (s : State) : Result :=
  checked .crc32 s (s.withInput fun input =>
    { s with crcState := crcBytes crcInitial input }.finish 0 0)

end Sys2Proof.Machine
end

