-- ==== Sys2Proof/Machine/Flags.lean ====
section
/-! DEFINITION. The control and status words: their fields, their read values, write-1-to-clear and write-1-to-set,
and the IRQ output (10_state.md R20 to R29, R42; 60_exceptions.md R161, R169). -/

namespace Sys2Proof.Machine

/-- The 8-bit value of each result code (60_exceptions.md R161). -/
def Code.toByte : Code → Byte
  | .ok => 0x00
  | .checksumInvalid => 0x01
  | .frameExpired => 0x02
  | .lengthMismatch => 0x03
  | .tagLengthMismatch => 0x04
  | .authenticationFailed => 0x05
  | .formatError => 0x10
  | .rangeError => 0x11
  | .overlapError => 0x12
  | .illegalCommand => 0x13
  | .configError => 0x14

/-- STATUS as read: CODE in [15:8], LOCK_WR, BUSY_WR, DONE, BUSY in [3:0], reserved bits 0 (R25 to R29). -/
def State.statusWord (s : State) : Word :=
  (0 : BitVec 16) ++ s.code.toByte ++ (0 : BitVec 4) ++
    BitVec.ofBool s.lockWr ++ BitVec.ofBool s.busyWr ++ BitVec.ofBool s.done ++ BitVec.ofBool s.busy

/-- CTRL as read: HASH_SEL in [3:2], KEYLOCK, IE; SRST and the reserved bits read 0 (R20, R24). -/
def State.ctrlWord (s : State) : Word :=
  (0 : BitVec 28) ++ s.hashSel ++ BitVec.ofBool s.keyLock ++ BitVec.ofBool s.ie

/-- A host write to STATUS: bits 1, 2, 3 clear DONE, BUSY_WR, LOCK_WR where 1; the rest is read-only (R25 to R29). -/
def State.writeStatus (s : State) (d : Word) : State :=
  { s with
    done := s.done && !d.getLsbD 1
    busyWr := s.busyWr && !d.getLsbD 2
    lockWr := s.lockWr && !d.getLsbD 3 }

/-- A host write to CTRL without SRST: IE and HASH_SEL replaced, KEYLOCK set where bit 1 is 1 (R20, R21, R22, R23). -/
def State.writeCtrlFields (s : State) (d : Word) : State :=
  { s with
    ie := d.getLsbD 0
    keyLock := s.keyLock || d.getLsbD 1
    hashSel := d.extractLsb' 2 2 }

/-- The IRQ output, a level: IE and DONE (R42, R169). -/
def State.irq (s : State) : Bool := s.ie && s.done

/-- The level the FIE drives on interrupt-controller input `line` (R42, R170). -/
def State.irqOn (s : State) (line : Nat) : Bool := line == s.params.irqLine && s.irq

end Sys2Proof.Machine
end

