-- ==== Sys2Proof/Machine/Bus.lean ====
section
/-! DEFINITION. Host accesses to the register space (20_memory.md R46 to R57, 30_encoding.md R74, R75, R80). -/

namespace Sys2Proof.Machine

/-- The registers of 10_state.md R18 and 30_encoding.md R74. -/
inductive Reg where
  | id | ctrl | status | cmd | src | len | dst | now | keyLen | outOff | outLen | ts
  | crcState | crcResult | digest0 | digest1 | digest2 | digest3 | digest4
deriving DecidableEq, Repr

/-- What an aligned offset of the register space names (R75). -/
inductive Target where
  | reg (r : Reg)
  | keyWord (k : Nat)
  | bufWord (k : Nat)
  | reserved
deriving DecidableEq, Repr

/-- ID (R19): the ASCII bytes "FIE1". -/
def idValue : Word := 0x46494531

/-- The register map (R74). -/
def regMap : List (Nat × Reg) := [
  (0x000, .id), (0x004, .ctrl), (0x008, .status), (0x00C, .cmd), (0x010, .src), (0x014, .len),
  (0x018, .dst), (0x01C, .now), (0x020, .keyLen), (0x024, .outOff), (0x028, .outLen), (0x02C, .ts),
  (0x030, .crcState), (0x034, .crcResult), (0x040, .digest0), (0x044, .digest1), (0x048, .digest2),
  (0x04C, .digest3), (0x050, .digest4)]

/-- The register at an offset, if there is one (R74). -/
def regAt (off : Nat) : Option Reg := (regMap.find? fun e => e.1 == off).map (·.2)

/-- Decoding an aligned offset (R75). -/
def target (p : Params) (off : Nat) : Target :=
  match regAt off with
  | some r => .reg r
  | none =>
    if 0x100 ≤ off && off < 0x100 + p.keySize then .keyWord ((off - 0x100) / 4)
    else if 0x1000 ≤ off && off < 0x1000 + p.bufSize then .bufWord ((off - 0x1000) / 4)
    else .reserved

/-- What a read of a register returns when no command is in flight (R19 to R39; CMD reads 0, R30). -/
def State.readReg (s : State) : Reg → Word
  | .id => idValue
  | .ctrl => s.ctrlWord
  | .status => s.statusWord
  | .cmd => 0
  | .src => s.src
  | .len => s.len
  | .dst => s.dst
  | .now => s.now
  | .keyLen => s.keyLen
  | .outOff => s.outOff
  | .outLen => s.outLen
  | .ts => s.ts
  | .crcState => s.crcState
  | .crcResult => crcResult s.crcState
  | .digest0 => s.digest.h0
  | .digest1 => s.digest.h1
  | .digest2 => s.digest.h2
  | .digest3 => s.digest.h3
  | .digest4 => s.digest.h4

/-- The registers whose reads are unspecified while a command is in flight (R53). -/
def Reg.hiddenWhileBusy : Reg → Bool
  | .crcState | .crcResult | .outOff | .outLen | .ts
  | .digest0 | .digest1 | .digest2 | .digest3 | .digest4 => true
  | .id | .ctrl | .status | .cmd | .src | .len | .dst | .now | .keyLen => false

/-- A read answered with a word; no read has a side effect (R57). -/
def State.answer (s : State) (w : Word) : State := { s with resp := .data w }

/-- A read answered with an unspecified word: the next free value (R53). -/
def State.answerFree (s : State) : State :=
  { s with resp := .data (Config.freeWord s.draws), draws := s.draws + 1 }

/-- The byte of BUF a read sees: an unwritten one is a free value (R190, U1). -/
def State.bufByte (s : State) (a draw : Nat) : Byte := (s.buf.read a).getD (Config.freeByte draw)

/-- All four bytes of BUF word `k` were written since the hardware reset. -/
def State.bufWordWritten (s : State) (k : Nat) : Bool :=
  (s.buf.readBytes (4 * k) 4).isSome

/-- A read of BUF word `k` (R50): big-endian lanes; bytes never written are free values (R190, U1). -/
def State.readBufWord (s : State) (k : Nat) : State :=
  { s with
    resp := .data (word4 (s.bufByte (4 * k) s.draws) (s.bufByte (4 * k + 1) (s.draws + 1))
      (s.bufByte (4 * k + 2) (s.draws + 2)) (s.bufByte (4 * k + 3) (s.draws + 3)))
    draws := if s.bufWordWritten k then s.draws else s.draws + 4 }

/-- A host read at an offset of the register space (R47, R48, R50, R51, R53, R75). -/
def State.busRead (s : State) (off width : Nat) : State :=
  if accessOk width off then
    match target s.params off with
    | .reg r => if s.busy && r.hiddenWhileBusy then s.answerFree else s.answer (s.readReg r)
    | .keyWord _ => s.answer 0
    | .bufWord k => if s.busy then s.answerFree else s.readBufWord k
    | .reserved => s.answer 0
  else { s with resp := .busError }

/-- A host write to CTRL (R20): bit 31 asks for a soft reset and nothing else (R24, R182). -/
def State.writeCtrl (s : State) (d : Word) : State :=
  if d.getLsbD 31 then s.softReset else s.writeCtrlFields d

/-- A host write to CMD: accepted when idle (R92), dropped when busy (R93). -/
def State.writeCmd (s : State) (d : Word) : State :=
  if s.busy then { s with busyWr := true } else s.accept d

/-- A host write to KEYLEN: dropped when locked (R34). -/
def State.writeKeyLen (s : State) (d : Word) : State :=
  if s.keyLock then { s with lockWr := true } else { s with keyLen := d }

/-- A host write to CRC_STATE: dropped when busy (R37). -/
def State.writeCrcState (s : State) (d : Word) : State :=
  if s.busy then { s with busyWr := true } else { s with crcState := d }

/-- A host write to a register (R20 to R39); a read-only one ignores it. -/
def State.writeReg (s : State) (r : Reg) (d : Word) : State :=
  match r with
  | .ctrl => s.writeCtrl d
  | .status => s.writeStatus d
  | .cmd => s.writeCmd d
  | .src => { s with src := d }
  | .len => { s with len := d }
  | .dst => { s with dst := d }
  | .now => { s with now := d }
  | .keyLen => s.writeKeyLen d
  | .crcState => s.writeCrcState d
  | .id | .outOff | .outLen | .ts | .crcResult
  | .digest0 | .digest1 | .digest2 | .digest3 | .digest4 => s

/-- A host write to KEY word `k`: big-endian lanes (R51); dropped when locked or busy, each with its flag (R54). -/
def State.writeKeyWord (s : State) (k : Nat) (d : Word) : State :=
  if s.keyLock || s.busy then
    { s with lockWr := s.lockWr || s.keyLock, busyWr := s.busyWr || s.busy }
  else { s with key := s.key.writeBytes (4 * k) (be32 d) }

/-- A host write to BUF word `k`: big-endian lanes (R50); dropped when busy (R52). -/
def State.writeBufWord (s : State) (k : Nat) (d : Word) : State :=
  if s.busy then { s with busyWr := true }
  else { s with buf := s.buf.writeBytes (4 * k) (be32 d) }

/-- A host write at an offset of the register space (R47, R48, R75). -/
def State.busWrite (s : State) (off width : Nat) (d : Word) : State :=
  if accessOk width off then
    { (match target s.params off with
       | .reg r => s.writeReg r d
       | .keyWord k => s.writeKeyWord k d
       | .bufWord k => s.writeBufWord k d
       | .reserved => s) with resp := .written }
  else { s with resp := .busError }

/-- The register-space offset of a bus address: BASE + 0x0000 to BASE + 0xFFFF (R46). -/
def Params.offsetOf (p : Params) (addr : Nat) : Option Nat :=
  if p.base ≤ addr ∧ addr < p.base + 0x10000 then some (addr - p.base) else none

/-- A host read of a bus address. While the reset input is asserted it has no effect and returns unspecified
data (R181, U5). -/
def State.hostRead (s : State) (addr width : Nat) : State :=
  match Params.offsetOf s.params addr with
  | none => { s with resp := .notSelected }
  | some off => if s.resetLine then s.answerFree else s.busRead off width

/-- A host write to a bus address. While the reset input is asserted it has no effect (R181, U5). -/
def State.hostWrite (s : State) (addr width : Nat) (d : Word) : State :=
  match Params.offsetOf s.params addr with
  | none => { s with resp := .notSelected }
  | some off => if s.resetLine then { s with resp := .written } else s.busWrite off width d

end Sys2Proof.Machine
end

