-- ==== Sys2Proof/Machine/Sha1.lean ====
section
/-! DEFINITION. SHA-1 (42_hmac.md R126 to R129). -/

namespace Sys2Proof.Machine

/-- The initial hash words (R129). -/
def sha1Initial : Digest :=
  { h0 := 0x67452301, h1 := 0xEFCDAB89, h2 := 0x98BADCFE, h3 := 0x10325476, h4 := 0xC3D2E1F0 }

/-- `k` of R126: how many zero bytes follow the 0x80 of a message of `l` bytes. -/
def sha1ZeroCount (l : Nat) : Nat := (119 - l % 64) % 64

/-- The padded message (R126). -/
def sha1Pad (m : List Byte) : List Byte :=
  m ++ [0x80] ++ List.replicate (sha1ZeroCount m.length) 0 ++ be64 (BitVec.ofNat 64 (8 * m.length))

/-- The big-endian words of a block: W[0] to W[15] (R127). -/
def wordsOf : List Byte → List Word
  | b0 :: b1 :: b2 :: b3 :: rest => word4 b0 b1 b2 b3 :: wordsOf rest
  | _ => []

/-- One more word of the schedule, from the words so far, latest first (R127). -/
def sha1NextWord (w : List Word) : Word :=
  rol32 (w.getD 2 0 ^^^ w.getD 7 0 ^^^ w.getD 13 0 ^^^ w.getD 15 0) 1

/-- `n` more words of the schedule, latest first (R127). -/
def sha1Extend : Nat → List Word → List Word
  | 0, w => w
  | n + 1, w => sha1Extend n (sha1NextWord w :: w)

/-- The message schedule W[0] to W[79] of a block (R127). -/
def sha1Schedule (block : List Byte) : List Word :=
  (sha1Extend 64 (wordsOf block).reverse).reverse

/-- `f_t` (R128). -/
def sha1F (t : Nat) (b c d : Word) : Word :=
  if t < 20 then (b &&& c) ||| (~~~b &&& d)
  else if t < 40 then b ^^^ c ^^^ d
  else if t < 60 then (b &&& c) ||| (b &&& d) ||| (c &&& d)
  else b ^^^ c ^^^ d

/-- `K_t` (R128). -/
def sha1K (t : Nat) : Word :=
  if t < 20 then 0x5A827999
  else if t < 40 then 0x6ED9EBA1
  else if t < 60 then 0x8F1BBCDC
  else 0xCA62C1D6

/-- Round `t` with schedule word `w`; the working variables a to e are h0 to h4 (R129). -/
def sha1Round (t : Nat) (w : Word) (v : Digest) : Digest :=
  { h0 := rol32 v.h0 5 + sha1F t v.h1 v.h2 v.h3 + v.h4 + sha1K t + w
    h1 := v.h0
    h2 := rol32 v.h1 30
    h3 := v.h2
    h4 := v.h3 }

/-- The rounds from `t` on, one for each schedule word (R129). -/
def sha1Rounds : Nat → List Word → Digest → Digest
  | _, [], v => v
  | t, w :: ws, v => sha1Rounds (t + 1) ws (sha1Round t w v)

/-- Word by word addition mod 2^32 (R129). -/
def Digest.add (x y : Digest) : Digest :=
  { h0 := x.h0 + y.h0, h1 := x.h1 + y.h1, h2 := x.h2 + y.h2, h3 := x.h3 + y.h3, h4 := x.h4 + y.h4 }

/-- One block (R129). -/
def sha1Block (h : Digest) (block : List Byte) : Digest :=
  h.add (sha1Rounds 0 (sha1Schedule block) h)

/-- The first `n` blocks of a padded message, in order (R126, R129). -/
def sha1Blocks : Nat → Digest → List Byte → Digest
  | 0, h, _ => h
  | n + 1, h, m => sha1Blocks n (sha1Block h (m.take 64)) (m.drop 64)

/-- `sha1` (R129). -/
def sha1 (m : List Byte) : Digest :=
  sha1Blocks ((sha1Pad m).length / 64) sha1Initial (sha1Pad m)

/-- The 20 bytes of five hash words, big-endian (R39, R129). -/
def Digest.bytes (d : Digest) : List Byte :=
  be32 d.h0 ++ be32 d.h1 ++ be32 d.h2 ++ be32 d.h3 ++ be32 d.h4

/-- `sha1_bytes` (R129). -/
def sha1Bytes (m : List Byte) : List Byte := (sha1 m).bytes

end Sys2Proof.Machine
end

