-- ==== Sys2Proof/Machine/Hmac.lean ====
section
/-! DEFINITION. The HMAC generator (42_hmac.md): HMAC-SHA1 (R130), the hex tag (R131), HMAC and HMAC_HEX. -/

namespace Sys2Proof.Machine

/-- `k0` of R130: a key longer than 64 bytes is hashed first, then zeros fill up to 64 bytes. -/
def hmacBlockKey (key : List Byte) : List Byte :=
  let k1 := if 64 < key.length then sha1Bytes key else key
  k1 ++ List.replicate (64 - k1.length) 0

/-- A byte sequence xored bytewise with one repeated byte (R130). -/
def xorEach (pad : Byte) (b : List Byte) : List Byte := b.map (· ^^^ pad)

/-- `hmac_sha1(key, m)` (R130). -/
def hmacSha1 (key m : List Byte) : Digest :=
  sha1 (xorEach 0x5C (hmacBlockKey key) ++ sha1Bytes (xorEach 0x36 (hmacBlockKey key) ++ m))

/-- `nib(v)` (R131): lower-case hexadecimal digit. -/
def hexDigit (v : BitVec 4) : Byte :=
  if v < 10 then 0x30 + v.setWidth 8 else 0x61 + (v.setWidth 8 - 10)

/-- `hex(d)` (R131): two digits a byte, the high one first. -/
def hexText : List Byte → List Byte
  | [] => []
  | b :: r => hexDigit (b.extractLsb' 4 4) :: hexDigit (b.extractLsb' 0 4) :: hexText r

/-- The 40-byte tag text of five hash words (R131, R151). -/
def tagText (d : Digest) : List Byte := hexText d.bytes

/-- HMAC (R133). -/
def execHmac (s : State) : Result :=
  checked .hmac s (s.withInput fun input => s.withKey fun key =>
    { s with digest := hmacSha1 key input }.finish 0 0)

/-- HMAC_HEX (R134). -/
def execHmacHex (s : State) : Result :=
  checked .hmacHex s (s.withInput fun input => s.withKey fun key =>
    { s with
      digest := hmacSha1 key input
      buf := s.buf.writeBytes s.dstOff (tagText (hmacSha1 key input)) }.finish s.latch.dst 40)

end Sys2Proof.Machine
end

