-- ==== Sys2Proof/Machine/Auth.lean ====
section
/-! DEFINITION. Authenticated framing (44_auth_framing.md; layout 30_encoding.md R83). -/

namespace Sys2Proof.Machine

/-- The tag of a payload under a key (R151). -/
def authTag (key payload : List Byte) : List Byte := tagText (hmacSha1 key payload)

/-- The inner structure of an authenticated frame (R83, R152). -/
def authInner (payload tag : List Byte) : List Byte :=
  be32 (u32 payload.length) ++ payload ++ be32 (u32 tag.length) ++ tag

/-- The authenticated frame: the inner structure behind its length (R81, R83, R152). -/
def authFrame (payload tag : List Byte) : List Byte :=
  be32 (u32 (authInner payload tag).length) ++ authInner payload tag

/-- `tag_equal` (R154): equal length and every byte equal. -/
def tagEqual (e t : List Byte) : Bool := e == t

/-- PACK_AUTH (R152). -/
def execPackAuth (s : State) : Result :=
  checked .packAuth s (s.withInput fun payload => s.withKey fun key =>
    { s with
      digest := hmacSha1 key payload
      buf := s.buf.writeBytes s.dstOff (authFrame payload (authTag key payload)) }.finish
        s.latch.dst (u32 (s.srcLen + 52)))

/-- UNPACK_AUTH (R153) after the length checks: recompute the tag of `payload` and compare. -/
def unpackAuthTag (s : State) (payload tag : List Byte) : Result :=
  s.withKey fun key =>
    let s' := { s with digest := hmacSha1 key payload }
    if tagEqual (authTag key payload) tag then s'.finish (s.latch.src + 8) (u32 payload.length)
    else s'.raise .authenticationFailed

/-- UNPACK_AUTH (R153) from the inner structure on. -/
def unpackAuthInner (s : State) (inner : List Byte) : Result :=
  let m := inner.length
  let n := (field32 inner 0).toNat
  if m < 4 then s.raise .formatError
  else if m < n + 8 then s.raise .formatError
  else if (field32 inner (4 + n)).toNat ≠ m - 8 - n then s.raise .tagLengthMismatch
  else unpackAuthTag s (slice inner 4 (4 + n)) (slice inner (8 + n) m)

/-- UNPACK_AUTH (R153, R155). -/
def execUnpackAuth (s : State) : Result :=
  checked .unpackAuth s (s.withInput fun body =>
    if s.srcLen < 4 then s.raise .formatError
    else if (field32 body 0).toNat ≠ s.srcLen - 4 then s.raise .lengthMismatch
    else unpackAuthInner s (body.drop 4))

end Sys2Proof.Machine
end

