-- ==== Sys2Proof/Machine/Checksum.lean ====
section
/-! DEFINITION. Checksum+Freshness framing (43_checksum_framing.md; layout 30_encoding.md R82). -/

namespace Sys2Proof.Machine

/-- The freshness window in seconds (00_scope.md R5, R144). -/
abbrev freshWindow : Nat := 60

/-- `fresh(ts, now)` on unbounded numbers (R144). -/
def fresh (ts now : Word) : Bool := now.toNat ≤ ts.toNat + freshWindow

/-- The running CRC state over `timestamp ++ buf` (R141). -/
def csumState (tsb payload : List Byte) : Word := crcBytes crcInitial (tsb ++ payload)

/-- The checksum+freshness body of a payload (R82, R142). -/
def csumBody (payload : List Byte) (ts : Word) : List Byte :=
  be32 (u32 payload.length) ++ payload ++ be32 ts ++ be32 (crcResult (csumState (be32 ts) payload))

/-- PACK_CSUM (R142). -/
def execPackCsum (s : State) : Result :=
  checked .packCsum s (s.withInput fun payload =>
    { s with
      crcState := csumState (be32 s.latch.now) payload
      ts := s.latch.now
      buf := s.buf.writeBytes s.dstOff (csumBody payload s.latch.now) }.finish
        s.latch.dst (u32 (s.srcLen + 12)))

/-- UNPACK_CSUM (R143) after both length checks, with the payload length `n` its length field gives. -/
def unpackCsumFields (s : State) (body : List Byte) (n : Nat) : Result :=
  let payload := slice body 4 (4 + n)
  let tsb := slice body (4 + n) (8 + n)
  let tsv := field32 body (4 + n)
  let c := csumState tsb payload
  let s' := { s with crcState := c, ts := tsv }
  if crcResult c ≠ field32 body (8 + n) then s'.raise .checksumInvalid
  else if fresh tsv s.latch.now then s'.finish (s.latch.src + 4) (u32 n)
  else s'.raise .frameExpired

/-- UNPACK_CSUM (R143, R145). -/
def execUnpackCsum (s : State) : Result :=
  checked .unpackCsum s (s.withInput fun body =>
    if s.srcLen < 4 then s.raise .formatError
    else if s.srcLen ≠ (field32 body 0).toNat + 12 then s.raise .formatError
    else unpackCsumFields s body (field32 body 0).toNat)

end Sys2Proof.Machine
end

