-- ==== Sys2Proof/Machine/Control.lean ====
section
/-! DEFINITION. NOP (40_command_lifecycle.md R102). -/

namespace Sys2Proof.Machine

/-- NOP (R102). -/
def execNop (s : State) : Result :=
  checked .nop s (s.finish 0 0)

end Sys2Proof.Machine
end

