-- ==== Sys2Proof/Machine/Dispatch.lean ====
section
/-! DEFINITION. The perform step of each command, by its constructor (R94). -/

namespace Sys2Proof.Machine

def exec (i : Instr) (s : State) : Host.Outcome State Fault Refusal :=
  match i with
  | .nop => Sys2Proof.Machine.execNop s
  | .crcInit => Sys2Proof.Machine.execCrcInit s
  | .crcUpdate => Sys2Proof.Machine.execCrcUpdate s
  | .crc32 => Sys2Proof.Machine.execCrc32 s
  | .hmac => Sys2Proof.Machine.execHmac s
  | .hmacHex => Sys2Proof.Machine.execHmacHex s
  | .packCsum => Sys2Proof.Machine.execPackCsum s
  | .unpackCsum => Sys2Proof.Machine.execUnpackCsum s
  | .packAuth => Sys2Proof.Machine.execPackAuth s
  | .unpackAuth => Sys2Proof.Machine.execUnpackAuth s

end Sys2Proof.Machine
end

