-- ==== Sys2Proof/Machine/Engine.lean ====
section
/-! DEFINITION. The engine's turn: the perform step of the command in flight (R94). -/

namespace Sys2Proof.Machine

/-- The engine's turn (R94): while a command is in flight it is performed; an illegal word completes with
IllegalCommand (R77); while idle nothing happens (R178). -/
def perform (s : State) : Result :=
  if s.busy then
    match decodeWord s.commandWord with
    | .ok i => exec i s
    | .error _ => s.raiseIllegal
  else .next s

end Sys2Proof.Machine
end

