-- ==== Sys2Proof/Machine/Step.lean ====
section
/-! DEFINITION. One step of the FIE: the next event of `inputs` (R91, R165). -/

namespace Sys2Proof.Machine

/-- One step: the first event of `inputs` happens; with no event left the engine takes its turn (weak fairness,
R196; notes/assumptions/2.md). -/
def step (s : State) : Host.Outcome State Fault Refusal :=
  match s.inputs with
  | [] => perform s
  | .write addr width d :: rest => .next ({ s with inputs := rest }.hostWrite addr width d)
  | .read addr width :: rest => .next ({ s with inputs := rest }.hostRead addr width)
  | .engineTurn :: rest => perform { s with inputs := rest }
  | .assertReset :: rest => .next { s with inputs := rest }.hardwareReset
  | .releaseReset :: rest => .next { s with inputs := rest, resetLine := false }

/-- `s` right after the accept of the command word whose low `nbits` bits are `w` (R92), with the engine's turn
next: the very next step performs it (notes/assumptions/3.md). -/
def State.withFetchWord (s : State) (nbits w : Nat) : State :=
  { s.accept (BitVec.ofNat 32 (w % 2 ^ nbits)) with
    resetLine := false
    inputs := .engineTurn :: s.inputs }

end Sys2Proof.Machine
end

