-- ==== Sys2Proof/Safety.lean ====
section
/-! DEFINITION. The invariant of the FIE and the condition under which a command runs its own steps, in the terms
the statements use. -/

namespace Sys2Proof.Machine

/-- What every reachable state satisfies: legal parameters (R5); BUF and KEY canonical and inside their sizes (R40,
R41); a command in flight has DONE = 0 (R92, R100) and none is in flight under reset (R181); a failure code leaves
OUTOFF = OUTLEN = 0 (R100); the output range lies in BUF (R35, R96). -/
structure State.Inv (s : State) : Prop where
  params_wf : s.params.wf = true
  buf_wf : s.buf.wf
  key_wf : s.key.wf
  buf_bound : ∀ c ∈ s.buf, c.1 < s.params.bufSize
  key_bound : ∀ c ∈ s.key, c.1 < s.params.keySize
  busy_not_done : s.busy = true → s.done = false
  reset_not_busy : s.resetLine = true → s.busy = false
  failure_no_output : s.code ≠ .ok → s.outOff = 0 ∧ s.outLen = 0
  output_in_buf : s.outOff.toNat + s.outLen.toNat ≤ s.params.bufSize

/-- No common check of R94 fails for the latched operands, written out from R95 to R99: the hash select, the key
length, the input range, the output range, and no byte shared by the two ranges. -/
abbrev ChecksPass (i : Instr) (s : State) : Prop :=
  (usesKey i = true → s.latch.hash = 0 ∧ s.latch.keyLen.toNat ≤ s.params.keySize) ∧
  (readsSrc i = true → s.latch.src.toNat + s.latch.len.toNat ≤ s.params.bufSize) ∧
  (writesDst i = true →
    s.latch.dst.toNat + outputLen i s.latch.len.toNat ≤ s.params.bufSize ∧
    (s.latch.len = 0 ∨ s.latch.src.toNat + s.latch.len.toNat ≤ s.latch.dst.toNat ∨
      s.latch.dst.toNat + outputLen i s.latch.len.toNat ≤ s.latch.src.toNat))

/-- The bytes of the latched input range (R104), each of them written (R190). -/
abbrev InputIs (s : State) (bytes : List Byte) : Prop :=
  s.buf.readBytes s.latch.src.toNat s.latch.len.toNat = some bytes

/-- The bytes of the latched key (R41), each of them written (R190). -/
abbrev KeyIs (s : State) (bytes : List Byte) : Prop :=
  s.key.readBytes 0 s.latch.keyLen.toNat = some bytes

end Sys2Proof.Machine
end

