-- ==== Sys2Proof/Certificates/Slice0/Obligations.lean ====
section
/-! DEFINITION. The statements about the FIE that the provers are given (OBLIGATIONS.json lists them). Every host access
also sets the response field `resp`, which is the model's own (notes/assumptions/7.md). -/

open Sys2Proof Sys2Proof.Machine

/-! ## Encoding -/

/-- Decoder and encoder agree on every 32-bit word: a word decodes to a command exactly when it is that command's
word (R76, R90). -/
def Obligations.DecodesExactlyTheEncodedWord : Prop :=
  ∀ (w : Word) (i : Instr), decodeWord w = .ok i ↔ w = encode i

/-- R77: a word is a command iff RSV is 0 and OPCODE is assigned; any other word written to CMD while idle is
accepted (BUSY set, DONE cleared) and its perform step completes with IllegalCommand and no other effect. -/
def Obligations.IllegalWordIsAcceptedAndFails : Prop :=
  ∀ (s : State) (w : Word),
    let legal := w.extractLsb' 8 24 = 0 ∧
      w.extractLsb' 0 8 ∈ ([0x00, 0x01, 0x02, 0x03, 0x10, 0x11, 0x20, 0x21, 0x30, 0x31] : List Byte)
    ((∃ i, decodeWord w = .ok i) ↔ legal) ∧
    (¬ legal → s.busy = false →
      (s.busWrite 0x00C 32 w).busy = true ∧ (s.busWrite 0x00C 32 w).done = false ∧
      perform (s.busWrite 0x00C 32 w) = .next
        { s.busWrite 0x00C 32 w with
          code := .illegalCommand, outOff := 0, outLen := 0, busy := false, done := true })

/-- Ten words written out from the opcode map R76 decode to the commands it names. -/
def Obligations.OpcodeMapWordsDecode : Prop :=
  decodeWord 0x00000000 = .ok .nop ∧ decodeWord 0x00000001 = .ok .crcInit ∧
  decodeWord 0x00000002 = .ok .crcUpdate ∧ decodeWord 0x00000003 = .ok .crc32 ∧
  decodeWord 0x00000010 = .ok .hmac ∧ decodeWord 0x00000011 = .ok .hmacHex ∧
  decodeWord 0x00000020 = .ok .packCsum ∧ decodeWord 0x00000021 = .ok .unpackCsum ∧
  decodeWord 0x00000030 = .ok .packAuth ∧ decodeWord 0x00000031 = .ok .unpackAuth

/-! ## Steps -/

/-- A step runs the decoded command: with a command in flight and the engine's turn next (or no event left, the
model's choice of notes/assumptions/2.md) the step is exec of the decoded command on the state without that event. -/
def Obligations.StepRunsDecodedCommand : Prop :=
  ∀ (s : State) (i : Instr), s.busy = true → decodeWord s.commandWord = .ok i →
    (∀ rest, s.inputs = .engineTurn :: rest → step s = exec i { s with inputs := rest }) ∧
    (s.inputs = [] → step s = exec i s)

/-- While no command is in flight the engine has nothing to perform (R91): its turn in the event list, or the end of that
list, changes nothing but the list. That an idle engine has a turn, and that a step with no event left is the
engine's, are the model's choice (notes/assumptions/2.md). -/
def Obligations.IdleEngineDoesNothing : Prop :=
  ∀ s : State, s.busy = false →
    (∀ rest, s.inputs = .engineTurn :: rest → step s = .next { s with inputs := rest }) ∧
    (s.inputs = [] → step s = .next s)

/-- A host access in the register space, the reset input released, is one step that reads or writes at its offset
from BASE; an access outside the 64 KiB at BASE changes only the model's response field (the model's choice of
notes/assumptions/7.md). -/
def Obligations.StepPerformsHostAccess : Prop :=
  ∀ (s : State) (off width : Nat) (d : Word) (rest : List Event),
    (off < 0x10000 → s.resetLine = false →
      (s.inputs = .write (s.params.base + off) width d :: rest →
        step s = .next ({ s with inputs := rest }.busWrite off width d)) ∧
      (s.inputs = .read (s.params.base + off) width :: rest →
        step s = .next ({ s with inputs := rest }.busRead off width))) ∧
    (∀ addr, addr < s.params.base ∨ s.params.base + 0x10000 ≤ addr →
      (s.inputs = .write addr width d :: rest ∨ s.inputs = .read addr width :: rest) →
        step s = .next { s with inputs := rest, resp := .notSelected })

/-- The model's own fetch interface (notes/assumptions/3.md): after withFetchWord the very next step runs the
command the word decodes to, on the state right after its accept (R92). -/
def Obligations.FetchWordRunsOnTheNextStep : Prop :=
  ∀ (s : State) (nbits w : Nat) (i : Instr), decodeTableWord nbits w = some i →
    step (s.withFetchWord nbits w) = exec i { s.accept (BitVec.ofNat 32 (w % 2 ^ nbits)) with resetLine := false }

/-- No step refuses, and a step faults only where R190 says the result is not determined: a command in flight whose
input range, or whose key, holds a byte never written. -/
def Obligations.StepStopsOnlyOnUnwrittenBytes : Prop :=
  ∀ s : State, (∀ r, step s ≠ .refused r) ∧
    (∀ f, step s = .fault f → s.busy = true ∧
      ((f = .unwrittenBuf ∧ ∃ a, s.latch.src.toNat ≤ a ∧ a < s.latch.src.toNat + s.latch.len.toNat ∧
          s.buf.read a = none) ∨
       (f = .unwrittenKey ∧ ∃ a, a < s.latch.keyLen.toNat ∧ s.key.read a = none)))

/-- R190: a command whose checks pass faults where a byte it uses was never written since the hardware reset: a byte
of its input range, before its own length checks; then, for a command that uses the key, a byte of the key, which
UNPACK_AUTH reads once its length checks pass. The order of these tests is the model's choice
(notes/assumptions/4.md). -/
def Obligations.UnwrittenInputFaults : Prop :=
  ∀ (i : Instr) (s : State) (a : Nat), ChecksPass i s →
    (i ∈ ([.crcUpdate, .crc32, .hmac, .hmacHex, .packCsum, .unpackCsum, .packAuth, .unpackAuth] : List Instr) →
      s.latch.src.toNat ≤ a → a < s.latch.src.toNat + s.latch.len.toNat → s.buf.read a = none →
      exec i s = .fault .unwrittenBuf) ∧
    (∀ input, InputIs s input → a < s.latch.keyLen.toNat → s.key.read a = none →
      (i ∈ ([.hmac, .hmacHex, .packAuth] : List Instr) → exec i s = .fault .unwrittenKey) ∧
      (∀ o n k : Word, i = .unpackAuth → dec32 input = some o → o.toNat = s.latch.len.toNat - 4 →
        dec32 (input.drop 4) = some n → n.toNat + 8 ≤ s.latch.len.toNat - 4 →
        dec32 (input.drop (8 + n.toNat)) = some k → k.toNat = s.latch.len.toNat - 12 - n.toNat →
        exec i s = .fault .unwrittenKey))

/-! ## Accept, checks, completion -/

/-- R92: a write of w to CMD while BUSY = 0 latches w and the operands, clears DONE, sets BUSY and changes nothing
else (the response field is the model's own, notes/assumptions/7.md); IRQ deasserts. -/
def Obligations.CommandAcceptLatchesOperands : Prop :=
  ∀ (s : State) (w : Word), s.busy = false →
    s.busWrite 0x00C 32 w =
      { s with
        latch :=
          { op := w.extractLsb' 0 8, rsv := w.extractLsb' 8 24, src := s.src, len := s.len, dst := s.dst,
            now := s.now, keyLen := s.keyLen, hash := s.hashSel }
        done := false
        busy := true
        resp := .written } ∧
    (s.busWrite 0x00C 32 w).irq = false

/-- R93: a write to CMD while BUSY = 1 sets BUSY_WR and changes nothing else (the response field is the model's own,
notes/assumptions/7.md). -/
def Obligations.CommandWriteWhileBusyIsDropped : Prop :=
  ∀ (s : State) (w : Word), s.busy = true → s.busWrite 0x00C 32 w = { s with busyWr := true, resp := .written }

/-- R101, with the checks of R94 to R99 in the order of R164: a command that ends in a common check changes nothing
but what completion changes, and reports the first check that fails. -/
def Obligations.CommonChecksInOrder : Prop :=
  ∀ (i : Instr) (s : State),
    let inKey := i ∈ ([.hmac, .hmacHex, .packAuth, .unpackAuth] : List Instr)
    let inSrc := i ∈
      ([.crcUpdate, .crc32, .hmac, .hmacHex, .packCsum, .unpackCsum, .packAuth, .unpackAuth] : List Instr)
    let inDst := i ∈ ([.hmacHex, .packCsum, .packAuth] : List Instr)
    let src := s.latch.src.toNat
    let n := s.latch.len.toNat
    let dst := s.latch.dst.toNat
    let m := if i = .hmacHex then 40 else if i = .packCsum then n + 12 else n + 52
    let failed (c : Code) : Result :=
      .next { s with code := c, outOff := 0, outLen := 0, busy := false, done := true }
    let badHash := inKey ∧ s.latch.hash ≠ 0
    let badKey := inKey ∧ s.params.keySize < s.latch.keyLen.toNat
    let badSrc := inSrc ∧ s.params.bufSize < src + n
    let badDst := inDst ∧ s.params.bufSize < dst + m
    let overlaps := inDst ∧ 0 < n ∧ 0 < m ∧ src < dst + m ∧ dst < src + n
    (∀ e, s.busy = true → decodeWord s.commandWord = .error e → perform s = failed .illegalCommand) ∧
    (badHash → exec i s = failed .configError) ∧
    (¬ badHash → badKey → exec i s = failed .rangeError) ∧
    (¬ badHash → ¬ badKey → badSrc → exec i s = failed .rangeError) ∧
    (¬ badHash → ¬ badKey → ¬ badSrc → badDst → exec i s = failed .rangeError) ∧
    (¬ badHash → ¬ badKey → ¬ badSrc → ¬ badDst → overlaps → exec i s = failed .overlapError)

/-- R100 seen at the end of every perform step that does not fault, of a command and of an illegal word: BUSY clear,
DONE set, IRQ follows IE, OUTOFF = OUTLEN = 0 unless the code is OK; and everything no command writes is unchanged. -/
def Obligations.EveryPerformCompletes : Prop :=
  let completes (s t : State) : Prop :=
    t.busy = false ∧ t.done = true ∧ t.irq = s.ie ∧ (t.code ≠ .ok → t.outOff = 0 ∧ t.outLen = 0) ∧
    t = { s with
      code := t.code, outOff := t.outOff, outLen := t.outLen, busy := false, done := true
      crcState := t.crcState, ts := t.ts, digest := t.digest, buf := t.buf }
  (∀ (i : Instr) (s t : State), exec i s = .next t → completes s t) ∧
  (∀ s t : State, s.busy = true → perform s = .next t → completes s t)

/-- Which command writes what (the writes column of R76): CRC_STATE, TS, DIGEST and BUF change only under the
commands that name them, BUF only inside the output range, and a failing command writes no byte of BUF (R166). -/
def Obligations.CommandsWriteOnlyWhatTheyName : Prop :=
  ∀ (i : Instr) (s t : State), exec i s = .next t →
    (i ∉ ([.crcInit, .crcUpdate, .crc32, .packCsum, .unpackCsum] : List Instr) → t.crcState = s.crcState) ∧
    (i ∉ ([.packCsum, .unpackCsum] : List Instr) → t.ts = s.ts) ∧
    (i ∉ ([.hmac, .hmacHex, .packAuth, .unpackAuth] : List Instr) → t.digest = s.digest) ∧
    (i ∉ ([.hmacHex, .packCsum, .packAuth] : List Instr) ∨ t.code ≠ .ok → t.buf = s.buf) ∧
    (∀ a, a < s.latch.dst.toNat ∨ s.latch.dst.toNat + outputLen i s.latch.len.toNat ≤ a →
      t.buf.read a = s.buf.read a)

/-- The raised-by column of R161: the codes each command can complete with. -/
def Obligations.CodesEachCommandReports : Prop :=
  ∀ (i : Instr) (s t : State), exec i s = .next t → t.code ∈ (match i with
    | .nop | .crcInit => [Code.ok]
    | .crcUpdate | .crc32 => [.ok, .rangeError]
    | .hmac => [.ok, .configError, .rangeError]
    | .hmacHex | .packAuth => [.ok, .configError, .rangeError, .overlapError]
    | .packCsum => [.ok, .rangeError, .overlapError]
    | .unpackCsum => [.ok, .rangeError, .formatError, .checksumInvalid, .frameExpired]
    | .unpackAuth => [.ok, .configError, .rangeError, .formatError, .lengthMismatch, .tagLengthMismatch,
        .authenticationFailed])

/-! ## NOP and the CRC-32 engine -/

/-- R102: NOP completes OK on every state, whatever SRC, LEN and DST hold. -/
def Obligations.NopCompletes : Prop :=
  decodeWord 0x00000000 = .ok .nop ∧
  ∀ s : State, exec .nop s = .next { s with code := .ok, outOff := 0, outLen := 0, busy := false, done := true }

/-- R119: CRC_INIT completes OK on every state with CRC_STATE = 0xFFFFFFFF; CRC_STATE and CRC_RESULT then read
0xFFFFFFFF and 0. -/
def Obligations.CrcInitCompletes : Prop :=
  decodeWord 0x00000001 = .ok .crcInit ∧
  ∀ s : State, ∃ t,
    exec .crcInit s = .next t ∧
    t = { s with crcState := 0xFFFFFFFF, code := .ok, outOff := 0, outLen := 0, busy := false, done := true } ∧
    (t.busRead 0x030 32).resp = .data 0xFFFFFFFF ∧ (t.busRead 0x034 32).resp = .data 0x00000000

/-- CRC_UPDATE (R120) on a written input range inside BUF: CRC_STATE becomes crc_bytes of it and the input. -/
def Obligations.CrcUpdateCompletes : Prop :=
  ∀ (s : State) (input : List Byte), ChecksPass .crcUpdate s → InputIs s input →
    exec .crcUpdate s = .next
      { s with
        crcState := crcBytes s.crcState input
        code := .ok, outOff := 0, outLen := 0, busy := false, done := true }

/-- CRC32 (R121) on a written input range inside BUF: CRC_STATE becomes crc_bytes of 0xFFFFFFFF and the input,
and CRC_RESULT then reads CRC32 of the input (R118). -/
def Obligations.Crc32Completes : Prop :=
  ∀ (s : State) (input : List Byte), ChecksPass .crc32 s → InputIs s input → ∃ t,
    exec .crc32 s = .next t ∧
    t = { s with
      crcState := crcBytes 0xFFFFFFFF input
      code := .ok, outOff := 0, outLen := 0, busy := false, done := true } ∧
    (t.busRead 0x034 32).resp = .data (~~~ crcBytes 0xFFFFFFFF input)

/-- R122: crc_bytes composes over concatenation, and CRC_INIT, then CRC_UPDATE over a, then over b (the operands of
the second latched in between) leave CRC_RESULT = CRC32(a ++ b). -/
def Obligations.CrcUpdatesCompose : Prop :=
  (∀ (c : Word) (a b : List Byte), crcBytes (crcBytes c a) b = crcBytes c (a ++ b)) ∧
  ∀ (s s1 s2 t : State) (a b : List Byte),
    exec .crcInit s = .next s1 →
    ChecksPass .crcUpdate s1 → InputIs s1 a → exec .crcUpdate s1 = .next s2 →
    ∀ l : Latch, ChecksPass .crcUpdate { s2 with latch := l } → InputIs { s2 with latch := l } b →
      exec .crcUpdate { s2 with latch := l } = .next t →
      (t.busRead 0x034 32).resp = .data (crc32Of (a ++ b))

/-- R123: the check value. -/
def Obligations.CrcCheckValue : Prop :=
  crc32Of [0x31, 0x32, 0x33, 0x34, 0x35, 0x36, 0x37, 0x38, 0x39] = 0xCBF43926

/-- R124 for one byte: a change confined to one byte of the input changes CRC32. -/
def Obligations.CrcDetectsOneChangedByte : Prop :=
  ∀ (pre post : List Byte) (b b' : Byte), b ≠ b' → crc32Of (pre ++ b :: post) ≠ crc32Of (pre ++ b' :: post)

/-! ## The HMAC generator -/

/-- SHA-1 in full: the padding with the least number of zeros and a length that is a multiple of 64 (R126), the message
schedule (R127), the round functions and constants (R128), the 80 rounds of a block, the blocks in order from the
initial words, the digest bytes and the example "abc" (R129). -/
def Obligations.Sha1PaddingIsLeast : Prop :=
  let f (t : Nat) (b c d : Word) : Word :=
    if t ≤ 19 then (b &&& c) ||| (~~~ b &&& d) else if t ≤ 39 then b ^^^ c ^^^ d
    else if t ≤ 59 then (b &&& c) ||| (b &&& d) ||| (c &&& d) else b ^^^ c ^^^ d
  let k (t : Nat) : Word :=
    if t ≤ 19 then 0x5A827999 else if t ≤ 39 then 0x6ED9EBA1 else if t ≤ 59 then 0x8F1BBCDC else 0xCA62C1D6
  (∀ m : List Byte, m.length < 2 ^ 61 →
    (∃ z, sha1Pad m = m ++ [0x80] ++ List.replicate z 0 ++
        (List.range 8).map (fun i => BitVec.ofNat 8 (8 * m.length / 256 ^ (7 - i))) ∧
      (m.length + 1 + z) % 64 = 56 ∧ ∀ j, j < z → (m.length + 1 + j) % 64 ≠ 56) ∧
    (sha1Pad m).length % 64 = 0 ∧
    sha1 m = (List.range ((sha1Pad m).length / 64)).foldl
      (fun h j => sha1Block h (slice (sha1Pad m) (64 * j) (64 * j + 64)))
      { h0 := 0x67452301, h1 := 0xEFCDAB89, h2 := 0x98BADCFE, h3 := 0x10325476, h4 := 0xC3D2E1F0 }) ∧
  (∀ block : List Byte, block.length = 64 →
    let w (t : Nat) : Word := (sha1Schedule block).getD t 0
    (sha1Schedule block).length = 80 ∧
    (∀ t, t < 16 → dec32 (slice block (4 * t) (4 * t + 4)) = some (w t)) ∧
    (∀ t, 16 ≤ t → t < 80 → w t = (w (t - 3) ^^^ w (t - 8) ^^^ w (t - 14) ^^^ w (t - 16)).rotateLeft 1) ∧
    ∀ h : Digest,
      let v := (List.range 80).foldl
        (fun (v : Digest) t =>
          { h0 := v.h0.rotateLeft 5 + f t v.h1 v.h2 v.h3 + v.h4 + k t + w t
            h1 := v.h0, h2 := v.h1.rotateLeft 30, h3 := v.h2, h4 := v.h3 }) h
      sha1Block h block =
        { h0 := h.h0 + v.h0, h1 := h.h1 + v.h1, h2 := h.h2 + v.h2, h3 := h.h3 + v.h3, h4 := h.h4 + v.h4 }) ∧
  (∀ m : List Byte, sha1Bytes m =
    be32 (sha1 m).h0 ++ be32 (sha1 m).h1 ++ be32 (sha1 m).h2 ++ be32 (sha1 m).h3 ++ be32 (sha1 m).h4) ∧
  sha1 [0x61, 0x62, 0x63] =
    { h0 := 0xA9993E36, h1 := 0x4706816A, h2 := 0xBA3E2571, h3 := 0x7850C26C, h4 := 0x9CD0D89D }

/-- R130 in full: a key of at most 64 bytes is used as it is, a longer one is replaced by its SHA-1 digest; zeros fill it
to 64 bytes; the inner hash is over it xored with 0x36 and the message, the outer one over it xored with 0x5C and the
inner digest. So a long key gives the HMAC of its digest as key. With the values of SH2 (SHA-1 of "abc"), HM2 (key
"key"), HM8 (a key of exactly 64 bytes) and HM9 (one of 65) of 95_test_vectors.md. -/
def Obligations.HmacHashesLongKeys : Prop :=
  (∀ key m : List Byte,
    let k1 := if key.length ≤ 64 then key else sha1Bytes key
    let k0 := k1 ++ List.replicate (64 - k1.length) 0
    k0.length = 64 ∧
    hmacSha1 key m =
      sha1 (List.zipWith (· ^^^ ·) k0 (List.replicate 64 0x5C) ++
        sha1Bytes (List.zipWith (· ^^^ ·) k0 (List.replicate 64 0x36) ++ m)) ∧
    (64 < key.length → hmacSha1 key m = hmacSha1 (sha1Bytes key) m)) ∧
  sha1 [0x61, 0x62, 0x63] =
    { h0 := 0xA9993E36, h1 := 0x4706816A, h2 := 0xBA3E2571, h3 := 0x7850C26C, h4 := 0x9CD0D89D } ∧
  hmacSha1 [0x6B, 0x65, 0x79]
    [0x54, 0x68, 0x65, 0x20, 0x71, 0x75, 0x69, 0x63, 0x6B, 0x20, 0x62, 0x72, 0x6F, 0x77, 0x6E, 0x20, 0x66, 0x6F, 0x78,
     0x20, 0x6A, 0x75, 0x6D, 0x70, 0x73, 0x20, 0x6F, 0x76, 0x65, 0x72, 0x20, 0x74, 0x68, 0x65, 0x20, 0x6C, 0x61, 0x7A,
     0x79, 0x20, 0x64, 0x6F, 0x67] =
    { h0 := 0xDE7C9B85, h1 := 0xB8B78AA6, h2 := 0xBC8A7A36, h3 := 0xF70A9070, h4 := 0x1C9DB4D9 } ∧
  hmacSha1 (List.replicate 64 0x6B) [0x78] =
    { h0 := 0x2C31EADF, h1 := 0x68D9BA97, h2 := 0x1AD29339, h3 := 0xD28CE725, h4 := 0xB03C11F6 } ∧
  hmacSha1 (List.replicate 65 0x6B) [0x78] =
    { h0 := 0x7209ACA7, h1 := 0x5EC68087, h2 := 0x1725FD30, h3 := 0x9AA68974, h4 := 0x6677DBD4 }

/-- The rendering of R131: two digits a byte, high one first, '0' to '9' and 'a' to 'f'. -/
def Obligations.HexTextDigits : Prop :=
  ∀ (d : List Byte) (i : Nat) (h : i < d.length),
    let nib (v : Nat) : Nat := if v < 10 then 0x30 + v else 0x61 + (v - 10)
    (hexText d).length = 2 * d.length ∧
    ((hexText d)[2 * i]?).map BitVec.toNat = some (nib (d[i].toNat / 16)) ∧
    ((hexText d)[2 * i + 1]?).map BitVec.toNat = some (nib (d[i].toNat % 16))

/-- HMAC (R133) on a written input and key whose checks pass: DIGEST becomes the HMAC, nothing else changes but the
completion. -/
def Obligations.HmacCompletes : Prop :=
  ∀ (s : State) (key input : List Byte), ChecksPass .hmac s → InputIs s input → KeyIs s key →
    exec .hmac s = .next
      { s with
        digest := hmacSha1 key input
        code := .ok, outOff := 0, outLen := 0, busy := false, done := true }

/-- HMAC_HEX (R134): as HMAC, and the 40 bytes at L.DST are the hex text of the digest; every other byte of BUF
reads as before. -/
def Obligations.HmacHexCompletes : Prop :=
  ∀ (s : State) (key input : List Byte), ChecksPass .hmacHex s → InputIs s input → KeyIs s key → ∃ t,
    let h := hmacSha1 key input
    exec .hmacHex s = .next t ∧
    t = { s with
      digest := h, buf := t.buf
      code := .ok, outOff := s.latch.dst, outLen := 40, busy := false, done := true } ∧
    t.buf.readBytes s.latch.dst.toNat 40 =
      some (hexText (be32 h.h0 ++ be32 h.h1 ++ be32 h.h2 ++ be32 h.h3 ++ be32 h.h4)) ∧
    (∀ a, a < s.latch.dst.toNat ∨ s.latch.dst.toNat + 40 ≤ a → t.buf.read a = s.buf.read a)

/-! ## Checksum+Freshness framing -/

/-- R144: fresh(ts, now) is not (ts < now - 60), on unbounded integers. -/
def Obligations.FreshnessWindow : Prop :=
  ∀ ts now : Word, fresh ts now = true ↔ ¬ ((ts.toNat : Int) < (now.toNat : Int) - 60)

/-- PACK_CSUM (R142): the body of R82 is written at L.DST, CRC_STATE and TS are set, every other byte of BUF reads as
before. -/
def Obligations.PackCsumCompletes : Prop :=
  ∀ (s : State) (payload : List Byte), ChecksPass .packCsum s → InputIs s payload → ∃ t,
    let c := crcBytes 0xFFFFFFFF (be32 s.latch.now ++ payload)
    exec .packCsum s = .next t ∧
    t = { s with
      crcState := c, ts := s.latch.now, buf := t.buf
      code := .ok, outOff := s.latch.dst, outLen := s.latch.len + 12, busy := false, done := true } ∧
    t.buf.readBytes s.latch.dst.toNat (s.latch.len.toNat + 12) =
      some (be32 s.latch.len ++ payload ++ be32 s.latch.now ++ be32 (~~~ c)) ∧
    (∀ a, a < s.latch.dst.toNat ∨ s.latch.dst.toNat + (s.latch.len.toNat + 12) ≤ a →
      t.buf.read a = s.buf.read a)

/-- UNPACK_CSUM (R143, R145) on a body of the layout R82 with any checksum field f: ChecksumInvalid if f is not the
CRC, else FrameExpired if the timestamp is older than 60 seconds, else OK with the payload located in place. -/
def Obligations.UnpackCsumVerdict : Prop :=
  ∀ (s : State) (payload : List Byte) (stamp f : Word), ChecksPass .unpackCsum s →
    InputIs s (be32 (BitVec.ofNat 32 payload.length) ++ payload ++ be32 stamp ++ be32 f) →
    let c := crcBytes 0xFFFFFFFF (be32 stamp ++ payload)
    let t := { s with crcState := c, ts := stamp, busy := false, done := true }
    exec .unpackCsum s = .next
      (if ~~~ c ≠ f then { t with code := .checksumInvalid, outOff := 0, outLen := 0 }
       else if stamp.toNat + 60 < s.latch.now.toNat then { t with code := .frameExpired, outOff := 0, outLen := 0 }
       else { t with code := .ok, outOff := s.latch.src + 4, outLen := BitVec.ofNat 32 payload.length })

/-- UNPACK_CSUM (R143) on a body shorter than 4 bytes, or whose length is not its length field plus 12 (compared
without wrap-around): FormatError, and CRC_STATE and TS unchanged. -/
def Obligations.UnpackCsumFormatError : Prop :=
  ∀ (s : State) (body : List Byte), ChecksPass .unpackCsum s → InputIs s body →
    (s.latch.len.toNat < 4 ∨ ∃ n, dec32 body = some n ∧ s.latch.len.toNat ≠ n.toNat + 12) →
    exec .unpackCsum s = .next
      { s with code := .formatError, outOff := 0, outLen := 0, busy := false, done := true }

/-- The tamper property of R124 for one byte: a body of the layout R82 whose CRC field is the CRC of a timestamp and
payload that differ from the body's in exactly one byte completes with ChecksumInvalid. -/
def Obligations.CsumTamperIsDetected : Prop :=
  ∀ (s : State) (payload payload' pre post : List Byte) (stamp stamp' : Word) (b b' : Byte),
    be32 stamp ++ payload = pre ++ b :: post → be32 stamp' ++ payload' = pre ++ b' :: post → b ≠ b' →
    ChecksPass .unpackCsum s →
    InputIs s (be32 (BitVec.ofNat 32 payload'.length) ++ payload' ++ be32 stamp' ++
      be32 (crc32Of (be32 stamp ++ payload))) →
    ∃ t, exec .unpackCsum s = .next t ∧ t.code = .checksumInvalid

/-- R146: unpacking what PACK_CSUM packed at NOW = t, wherever it stands unchanged in BUF, with NOW = u: OK with the
packed payload iff fresh(t, u), otherwise FrameExpired. -/
def Obligations.CsumRoundTrip : Prop :=
  ∀ (s t u : State) (payload : List Byte),
    s.params.wf = true → InputIs s payload → exec .packCsum s = .next t → t.code = .ok →
    u.params = s.params → u.latch.src = t.outOff → u.latch.len = t.outLen →
    (∀ a, t.outOff.toNat ≤ a → a < t.outOff.toNat + t.outLen.toNat → u.buf.read a = t.buf.read a) →
    ∃ r, exec .unpackCsum u = .next r ∧
      (fresh s.latch.now u.latch.now = true →
        r.code = .ok ∧ r.buf.readBytes r.outOff.toNat r.outLen.toNat = some payload) ∧
      (fresh s.latch.now u.latch.now = false → r.code = .frameExpired)

/-! ## Authenticated framing -/

/-- PACK_AUTH (R152): the frame of R83 with the tag of R151 is written at L.DST, DIGEST is set, every other byte of
BUF reads as before. -/
def Obligations.PackAuthCompletes : Prop :=
  ∀ (s : State) (key payload : List Byte), ChecksPass .packAuth s → InputIs s payload → KeyIs s key → ∃ t,
    let h := hmacSha1 key payload
    let tag := hexText (be32 h.h0 ++ be32 h.h1 ++ be32 h.h2 ++ be32 h.h3 ++ be32 h.h4)
    exec .packAuth s = .next t ∧
    t = { s with
      digest := h, buf := t.buf
      code := .ok, outOff := s.latch.dst, outLen := s.latch.len + 52, busy := false, done := true } ∧
    t.buf.readBytes s.latch.dst.toNat (s.latch.len.toNat + 52) =
      some (be32 (s.latch.len + 48) ++ be32 s.latch.len ++ payload ++ be32 40 ++ tag) ∧
    (∀ a, a < s.latch.dst.toNat ∨ s.latch.dst.toNat + (s.latch.len.toNat + 52) ≤ a →
      t.buf.read a = s.buf.read a)

/-- UNPACK_AUTH (R153, R154) on a frame of the layout R83 with any tag bytes: OK with the payload located in place if
the tag is the recomputed one, byte for byte, else AuthenticationFailed; DIGEST holds the recomputed HMAC. -/
def Obligations.UnpackAuthVerdict : Prop :=
  ∀ (s : State) (key payload tag : List Byte), ChecksPass .unpackAuth s → KeyIs s key →
    InputIs s (be32 (BitVec.ofNat 32 (payload.length + tag.length + 8)) ++
      (be32 (BitVec.ofNat 32 payload.length) ++ payload ++ be32 (BitVec.ofNat 32 tag.length) ++ tag)) →
    let h := hmacSha1 key payload
    let t := { s with digest := h, busy := false, done := true }
    exec .unpackAuth s = .next
      (if tag = hexText (be32 h.h0 ++ be32 h.h1 ++ be32 h.h2 ++ be32 h.h3 ++ be32 h.h4) then
        { t with code := .ok, outOff := s.latch.src + 8, outLen := BitVec.ofNat 32 payload.length }
       else { t with code := .authenticationFailed, outOff := 0, outLen := 0 })

/-- UNPACK_AUTH (R153, R155) on a frame that fails a length check: the first failing one of FormatError (under 4
bytes), LengthMismatch, FormatError (truncated inner structure), TagLengthMismatch; DIGEST unchanged. -/
def Obligations.UnpackAuthLengthFailures : Prop :=
  ∀ (s : State) (body : List Byte), ChecksPass .unpackAuth s → InputIs s body →
    let len := s.latch.len.toNat
    let failed (c : Code) : Result :=
      .next { s with code := c, outOff := 0, outLen := 0, busy := false, done := true }
    (len < 4 → exec .unpackAuth s = failed .formatError) ∧
    (∀ o, dec32 body = some o → o.toNat ≠ len - 4 → exec .unpackAuth s = failed .lengthMismatch) ∧
    (∀ o, dec32 body = some o → o.toNat = len - 4 →
      (len - 4 < 4 → exec .unpackAuth s = failed .formatError) ∧
      (∀ n, dec32 (body.drop 4) = some n →
        (len - 4 < n.toNat + 8 → exec .unpackAuth s = failed .formatError) ∧
        (∀ k, n.toNat + 8 ≤ len - 4 → dec32 (body.drop (8 + n.toNat)) = some k → k.toNat ≠ len - 12 - n.toNat →
          exec .unpackAuth s = failed .tagLengthMismatch)))

/-- R156: unpacking what PACK_AUTH packed, wherever it stands unchanged in BUF, under the same key bytes and key
length: OK with the packed payload. -/
def Obligations.AuthRoundTrip : Prop :=
  ∀ (s t u : State) (payload : List Byte),
    s.params.wf = true → InputIs s payload → exec .packAuth s = .next t → t.code = .ok →
    u.params = s.params → u.latch.src = t.outOff → u.latch.len = t.outLen →
    u.latch.keyLen = s.latch.keyLen → u.latch.hash = 0 →
    (∀ a, t.outOff.toNat ≤ a → a < t.outOff.toNat + t.outLen.toNat → u.buf.read a = t.buf.read a) →
    (∀ a, a < s.latch.keyLen.toNat → u.key.read a = s.key.read a) →
    ∃ r, exec .unpackAuth u = .next r ∧ r.code = .ok ∧
      r.buf.readBytes r.outOff.toNat r.outLen.toNat = some payload

/-! ## Registers and windows -/

/-- R47, R171: an access of another width than 32 bits, or at an offset that is no multiple of 4, changes nothing but
the response (a bus error).
The response field is the model's own (notes/assumptions/7.md). -/
def Obligations.MisfitAccessIsRejected : Prop :=
  ∀ (s : State) (off width : Nat) (d : Word), width ≠ 32 ∨ off % 4 ≠ 0 →
    s.busWrite off width d = { s with resp := .busError } ∧ s.busRead off width = { s with resp := .busError }

/-- R48: a 32-bit aligned access to an offset that R74 gives to no register and no window reads 0 and writes
nothing, busy or not.
The response field is the model's own (notes/assumptions/7.md). -/
def Obligations.ReservedOffsetsReadZero : Prop :=
  ∀ (s : State) (off : Nat) (d : Word), off % 4 = 0 →
    off ∉ [0x000, 0x004, 0x008, 0x00C, 0x010, 0x014, 0x018, 0x01C, 0x020, 0x024, 0x028, 0x02C, 0x030, 0x034,
      0x040, 0x044, 0x048, 0x04C, 0x050] →
    ¬ (0x100 ≤ off ∧ off < 0x100 + s.params.keySize) → ¬ (0x1000 ≤ off ∧ off < 0x1000 + s.params.bufSize) →
    s.busRead off 32 = { s with resp := .data 0 } ∧ s.busWrite off 32 d = { s with resp := .written }

/-- What each register reads while no command is in flight (R19, R25 to R39, R74); a read changes nothing but the
response (R57). -/
def Obligations.IdleRegisterReads : Prop :=
  ∀ s : State, s.busy = false →
    ∀ e ∈ [(0x000, (0x46494531 : Word)), (0x004, s.ctrlWord), (0x008, s.statusWord), (0x00C, 0), (0x010, s.src),
      (0x014, s.len), (0x018, s.dst), (0x01C, s.now), (0x020, s.keyLen), (0x024, s.outOff), (0x028, s.outLen),
      (0x02C, s.ts), (0x030, s.crcState), (0x034, ~~~ s.crcState), (0x040, s.digest.h0), (0x044, s.digest.h1),
      (0x048, s.digest.h2), (0x04C, s.digest.h3), (0x050, s.digest.h4)],
      s.busRead e.1 32 = { s with resp := .data e.2 }

/-- R53: while BUSY = 1 a read of BUF, CRC_STATE, CRC_RESULT, OUTOFF, OUTLEN, TS or DIGEST returns an unspecified value,
the next free value, whatever it is (counting them is the model's choice, notes/assumptions/6.md), and the other
registers read their current values; CMD reads 0 (R30, R80). -/
def Obligations.BusyReadsAreUnspecified : Prop :=
  ∀ s : State, s.params.wf = true → s.busy = true →
    (∀ off, off ∈ [0x024, 0x028, 0x02C, 0x030, 0x034, 0x040, 0x044, 0x048, 0x04C, 0x050] ∨
        (∃ k, 4 * k + 3 < s.params.bufSize ∧ off = 0x1000 + 4 * k) →
      s.busRead off 32 = { s with resp := .data (Config.freeWord s.draws), draws := s.draws + 1 }) ∧
    ∀ e ∈ [(0x000, (0x46494531 : Word)), (0x004, s.ctrlWord), (0x008, s.statusWord), (0x00C, 0), (0x010, s.src),
      (0x014, s.len), (0x018, s.dst), (0x01C, s.now), (0x020, s.keyLen)],
      s.busRead e.1 32 = { s with resp := .data e.2 }

/-- R50: the lanes of a BUF word, on a host write while idle and on a host read of four written bytes while idle. A
read of a word with unwritten bytes (R190) has the written bytes in their lanes and a free byte in each other lane,
whatever it is (drawing them afresh and counting them is the model's choice, notes/assumptions/5.md). The response
field is the model's own (notes/assumptions/7.md). -/
def Obligations.BufWindowLanes : Prop :=
  ∀ (s : State) (k : Nat), s.params.wf = true → 4 * k + 3 < s.params.bufSize → s.busy = false →
    (∀ d : Word, ∃ t, s.busWrite (0x1000 + 4 * k) 32 d = t ∧ t = { s with buf := t.buf, resp := .written } ∧
      t.buf.read (4 * k) = some (d.extractLsb' 24 8) ∧ t.buf.read (4 * k + 1) = some (d.extractLsb' 16 8) ∧
      t.buf.read (4 * k + 2) = some (d.extractLsb' 8 8) ∧ t.buf.read (4 * k + 3) = some (d.extractLsb' 0 8) ∧
      (∀ a, a < 4 * k ∨ 4 * k + 4 ≤ a → t.buf.read a = s.buf.read a)) ∧
    (∀ b0 b1 b2 b3 : Byte, s.buf.readBytes (4 * k) 4 = some [b0, b1, b2, b3] →
      s.busRead (0x1000 + 4 * k) 32 =
        { s with
          resp := .data
            (BitVec.ofNat 32 (b0.toNat * 2 ^ 24 + b1.toNat * 2 ^ 16 + b2.toNat * 2 ^ 8 + b3.toNat)) } ∧
      dec32 [b0, b1, b2, b3] =
        some (BitVec.ofNat 32 (b0.toNat * 2 ^ 24 + b1.toNat * 2 ^ 16 + b2.toNat * 2 ^ 8 + b3.toNat))) ∧
    (let lane (j : Nat) : Nat := ((s.buf.read (4 * k + j)).getD (Config.freeByte (s.draws + j))).toNat
     (∃ j, j < 4 ∧ s.buf.read (4 * k + j) = none) →
      s.busRead (0x1000 + 4 * k) 32 =
        { s with
          resp := .data (BitVec.ofNat 32 (lane 0 * 2 ^ 24 + lane 1 * 2 ^ 16 + lane 2 * 2 ^ 8 + lane 3))
          draws := s.draws + 4 })

/-- R52: a host write to the BUF window while BUSY = 1 leaves BUF unchanged and sets BUSY_WR.
The response field is the model's own (notes/assumptions/7.md). -/
def Obligations.BufWriteWhileBusyIsDropped : Prop :=
  ∀ (s : State) (k : Nat) (d : Word), s.params.wf = true → 4 * k + 3 < s.params.bufSize → s.busy = true →
    s.busWrite (0x1000 + 4 * k) 32 d = { s with busyWr := true, resp := .written }

/-- R51, R54: the KEY window: big-endian lanes on a write while idle and unlocked; a write while locked or busy changes
only LOCK_WR and BUSY_WR; a read returns 0, busy or not.
The response field is the model's own (notes/assumptions/7.md). -/
def Obligations.KeyWindow : Prop :=
  ∀ (s : State) (k : Nat) (d : Word), s.params.wf = true → 4 * k + 3 < s.params.keySize →
    s.busRead (0x100 + 4 * k) 32 = { s with resp := .data 0 } ∧
    (s.keyLock = true ∨ s.busy = true →
      s.busWrite (0x100 + 4 * k) 32 d =
        { s with lockWr := s.lockWr || s.keyLock, busyWr := s.busyWr || s.busy, resp := .written }) ∧
    (s.keyLock = false → s.busy = false →
      ∃ t, s.busWrite (0x100 + 4 * k) 32 d = t ∧ t = { s with key := t.key, resp := .written } ∧
        t.key.read (4 * k) = some (d.extractLsb' 24 8) ∧ t.key.read (4 * k + 1) = some (d.extractLsb' 16 8) ∧
        t.key.read (4 * k + 2) = some (d.extractLsb' 8 8) ∧ t.key.read (4 * k + 3) = some (d.extractLsb' 0 8) ∧
        (∀ a, a < 4 * k ∨ 4 * k + 4 ≤ a → t.key.read a = s.key.read a))

/-- Host writes to SRC, LEN, DST, NOW (R31, R32) at any time, to KEYLEN (R34: dropped with LOCK_WR when locked, else
stored, busy or not) and to CRC_STATE (R37: dropped with BUSY_WR while busy). -/
def Obligations.OperandRegisterWrites : Prop :=
  ∀ (s : State) (d : Word),
    s.busWrite 0x010 32 d = { s with src := d, resp := .written } ∧
    s.busWrite 0x014 32 d = { s with len := d, resp := .written } ∧
    s.busWrite 0x018 32 d = { s with dst := d, resp := .written } ∧
    s.busWrite 0x01C 32 d = { s with now := d, resp := .written } ∧
    (s.keyLock = true → s.busWrite 0x020 32 d = { s with lockWr := true, resp := .written }) ∧
    (s.keyLock = false → s.busWrite 0x020 32 d = { s with keyLen := d, resp := .written }) ∧
    (s.busy = true → s.busWrite 0x030 32 d = { s with busyWr := true, resp := .written }) ∧
    (s.busy = false → s.busWrite 0x030 32 d = { s with crcState := d, resp := .written })

/-- Read-only registers ignore writes, busy or not, and set no flag (R19, R35, R36, R38, R39; the silence about flags is
read from R27, notes/assumptions/9.md). -/
def Obligations.ReadOnlyRegistersIgnoreWrites : Prop :=
  ∀ (s : State) (d : Word),
    ∀ off ∈ [0x000, 0x024, 0x028, 0x02C, 0x034, 0x040, 0x044, 0x048, 0x04C, 0x050],
      s.busWrite off 32 d = { s with resp := .written }

/-- CTRL (R20 to R24): a write without bit 31 replaces IE and HASH_SEL and sets KEYLOCK where bit 1 is 1, busy or not;
a read returns IE, KEYLOCK and HASH_SEL in bits 0, 1 and [3:2] and 0 elsewhere. -/
def Obligations.CtrlFields : Prop :=
  ∀ (s : State) (d : Word),
    (d.getLsbD 31 = false →
      s.busWrite 0x004 32 d =
        { s with
          ie := d.getLsbD 0, keyLock := s.keyLock || d.getLsbD 1, hashSel := d.extractLsb' 2 2
          resp := .written }) ∧
    s.busRead 0x004 32 = { s with resp := .data s.ctrlWord } ∧
    s.ctrlWord.toNat = s.ie.toNat + 2 * s.keyLock.toNat + 4 * s.hashSel.toNat

/-- STATUS (R25 to R29): a write clears DONE, BUSY_WR and LOCK_WR where bits 1, 2 and 3 are 1 and changes nothing else;
a read returns BUSY, DONE, BUSY_WR, LOCK_WR in bits 0 to 3 and the code of R161 in [15:8], 0 elsewhere. -/
def Obligations.StatusFields : Prop :=
  ∀ (s : State) (d : Word),
    s.busWrite 0x008 32 d =
      { s with
        done := s.done && !d.getLsbD 1, busyWr := s.busyWr && !d.getLsbD 2, lockWr := s.lockWr && !d.getLsbD 3
        resp := .written } ∧
    s.busRead 0x008 32 = { s with resp := .data s.statusWord } ∧
    s.statusWord.toNat = s.busy.toNat + 2 * s.done.toNat + 4 * s.busyWr.toNat + 8 * s.lockWr.toNat +
      256 * (match s.code with
        | .ok => 0x00 | .checksumInvalid => 0x01 | .frameExpired => 0x02 | .lengthMismatch => 0x03
        | .tagLengthMismatch => 0x04 | .authenticationFailed => 0x05 | .formatError => 0x10 | .rangeError => 0x11
        | .overlapError => 0x12 | .illegalCommand => 0x13 | .configError => 0x14)

/-- R42 (and R169 in part): IRQ is IE and DONE, driven on line IRQ_LINE and deasserted after reset; writing 1 to DONE
deasserts it, and clearing IE masks it without clearing DONE. -/
def Obligations.IrqIsALevel : Prop :=
  ∀ (s : State) (d : Word),
    (s.irqOn s.params.irqLine = true ↔ s.ie = true ∧ s.done = true) ∧ State.reset.irq = false ∧
    (d.getLsbD 1 = true → (s.busWrite 0x008 32 d).irq = false) ∧
    (d.getLsbD 31 = false → d.getLsbD 0 = false →
      (s.busWrite 0x004 32 d).irq = false ∧ (s.busWrite 0x004 32 d).done = s.done)

/-- R113: be32 and dec32 are inverses, and dec32 of fewer than four bytes is Insufficient (that clause of R111). -/
def Obligations.BigEndianInverse : Prop :=
  (∀ v : Word, dec32 (be32 v) = some v) ∧
  (∀ b : List Byte, 4 ≤ b.length → ∃ v, dec32 b = some v ∧ be32 v = b.take 4) ∧
  (∀ b : List Byte, b.length < 4 → dec32 b = none)

/-! ## Resets -/

/-- R45 and R181: asserting the reset input gives every state its hardware reset value, abandons a command in flight
and leaves BUF and KEY without a value; State.reset has the same values with the reset input released (the reset
input as a field is the model's choice, notes/assumptions/8.md). -/
def Obligations.HardwareResetValues : Prop :=
  ∀ (s : State) (rest : List Event), s.inputs = .assertReset :: rest → ∃ t, step s = .next t ∧
    (∀ u, u = t ∨ u = State.reset →
      u.ie = false ∧ u.hashSel = 0 ∧ u.keyLock = false ∧ u.busy = false ∧ u.done = false ∧ u.busyWr = false ∧
      u.lockWr = false ∧ u.code = .ok ∧ u.statusWord = 0 ∧ u.ctrlWord = 0 ∧ u.src = 0 ∧ u.len = 0 ∧ u.dst = 0 ∧
      u.now = 0 ∧ u.keyLen = 0 ∧ u.outOff = 0 ∧ u.outLen = 0 ∧ u.ts = 0 ∧ u.crcState = 0xFFFFFFFF ∧
      u.digest = Digest.zero ∧ u.latch = Latch.zero ∧ u.irq = false ∧
      (∀ a, u.buf.read a = none ∧ u.key.read a = none)) ∧
    t.resetLine = true ∧ State.reset.resetLine = false ∧ t.inputs = rest ∧ t.params = s.params

/-- R181: a host access while the reset input is asserted, as an operation and as a step, changes nothing but the response
and the count of free values drawn, both the model's own (notes/assumptions/6.md, 7.md, 8.md); a read returns the
next free value. The release of the reset input changes the reset input only (an event of the model's list,
notes/assumptions/2.md, 8.md). -/
def Obligations.AccessUnderResetHasNoEffect : Prop :=
  ∀ (s : State) (addr width : Nat) (d : Word) (rest : List Event),
    (s.resetLine = true → s.params.base ≤ addr → addr < s.params.base + 0x10000 →
      s.hostWrite addr width d = { s with resp := .written } ∧
      s.hostRead addr width = { s with resp := .data (Config.freeWord s.draws), draws := s.draws + 1 } ∧
      (s.inputs = .write addr width d :: rest → step s = .next { s with inputs := rest, resp := .written }) ∧
      (s.inputs = .read addr width :: rest →
        step s = .next
          { s with inputs := rest, resp := .data (Config.freeWord s.draws), draws := s.draws + 1 })) ∧
    (s.inputs = .releaseReset :: rest → step s = .next { s with inputs := rest, resetLine := false })

/-- R182: a write to CTRL with bit 31 = 1 while idle gives every register its soft reset value (the hardware one) but
KEYLOCK, KEYLEN, KEY and BUF, which keep theirs; the other bits of the write are ignored. -/
def Obligations.SoftResetWhileIdle : Prop :=
  ∀ (s : State) (d : Word), d.getLsbD 31 = true → s.busy = false →
    s.busWrite 0x004 32 d =
      { State.reset with
        keyLock := s.keyLock, keyLen := s.keyLen, key := s.key, buf := s.buf
        params := s.params, resetLine := s.resetLine, inputs := s.inputs, draws := s.draws, resp := .written }

/-- R183: a soft reset before the perform step of a command in flight abandons it: the registers are reset as by R182,
and no byte of BUF changes but those of the output range of a command that writes one and whose checks pass (nothing
is stated of those bytes: free values of the model, notes/assumptions/6.md). -/
def Obligations.SoftResetAbandonsCommand : Prop :=
  ∀ (s : State) (d : Word), d.getLsbD 31 = true → s.busy = true → ∃ t,
    s.busWrite 0x004 32 d = t ∧
    t = { State.reset with
      keyLock := s.keyLock, keyLen := s.keyLen, key := s.key, buf := t.buf
      params := s.params, resetLine := s.resetLine, inputs := s.inputs, draws := t.draws, resp := .written } ∧
    (∀ a, (¬ ∃ i, decodeWord s.commandWord = .ok i ∧
        i ∈ ([.hmacHex, .packCsum, .packAuth] : List Instr) ∧ ChecksPass i s ∧
        s.latch.dst.toNat ≤ a ∧ a < s.latch.dst.toNat + outputLen i s.latch.len.toNat) →
      t.buf.read a = s.buf.read a)

/-! ## Whole-machine statements -/

/-- The invariant holds right after reset. -/
def Obligations.InvariantAtReset : Prop :=
  State.reset.Inv

/-- Every step keeps the invariant, from every state that has it. -/
def Obligations.InvariantIsKept : Prop :=
  ∀ s t : State, s.Inv → step s = .next t → t.Inv

/-- A command is in flight only after an accepted CMD write (R91, R92): a step that sets BUSY is a 32-bit host write to
BASE + 0x00C, the reset input released. -/
def Obligations.BusyRisesOnlyByAccept : Prop :=
  ∀ s t : State, s.busy = false → step s = .next t → t.busy = true →
    s.resetLine = false ∧ ∃ w rest, s.inputs = .write (s.params.base + 0x00C) 32 w :: rest ∧
      t.latch.op = w.extractLsb' 0 8 ∧ t.latch.rsv = w.extractLsb' 8 24

/-- R23, R34, R54, R182 over whole runs: once KEYLOCK = 1, as long as the reset input is not asserted, KEYLOCK stays 1
and neither KEY nor KEYLEN changes, whatever the host and the engine do. -/
def Obligations.KeyLockHoldsUntilHardwareReset : Prop :=
  ∀ (k : Nat) (s t : State), s.keyLock = true → Event.assertReset ∉ s.inputs →
    Sys2Proof.core.run k s = .next t → t.keyLock = true ∧ t.key = s.key ∧ t.keyLen = s.keyLen

/-- The secret cannot be read over the bus (R51, R173): a host access or a reset edge on two states that differ only in
KEY gives two states that differ only in KEY, the response among what is equal. -/
def Obligations.KeyIsNotReadableOverTheBus : Prop :=
  ∀ (s : State) (k : Memory) (e : Event) (rest : List Event), s.inputs = e :: rest → e ≠ .engineTurn →
    ∃ (t : State) (k' : Memory), step s = .next t ∧ step { s with key := k } = .next { t with key := k' }

/-- R67: the result of a command is a function of L, the input bytes it reads, the key bytes it uses and, for CRC_UPDATE,
CRC_STATE: on a second state that agrees on those it completes too, with the same code, the same output range, the
same output bytes, and the same CRC_STATE, TS and DIGEST unless it leaves that register alone. -/
def Obligations.CommandsArePure : Prop :=
  ∀ (i : Instr) (s u t : State), s.params.wf = true → u.params = s.params → u.latch = s.latch →
    (i = .crcUpdate → u.crcState = s.crcState) →
    (i ∉ ([.nop, .crcInit] : List Instr) →
      ∀ a, s.latch.src.toNat ≤ a → a < s.latch.src.toNat + s.latch.len.toNat → u.buf.read a = s.buf.read a) →
    (i ∈ ([.hmac, .hmacHex, .packAuth, .unpackAuth] : List Instr) →
      ∀ a, a < s.latch.keyLen.toNat → u.key.read a = s.key.read a) →
    exec i s = .next t → ∃ r, exec i u = .next r ∧
      r.code = t.code ∧ r.outOff = t.outOff ∧ r.outLen = t.outLen ∧
      (r.crcState = t.crcState ∨ (t.crcState = s.crcState ∧ r.crcState = u.crcState)) ∧
      (r.ts = t.ts ∨ (t.ts = s.ts ∧ r.ts = u.ts)) ∧
      (r.digest = t.digest ∨ (t.digest = s.digest ∧ r.digest = u.digest)) ∧
      (∀ a, t.outOff.toNat ≤ a → a < t.outOff.toNat + t.outLen.toNat → r.buf.read a = t.buf.read a)
end

