-- ==== Sys2Proof/Laws/Bytes.lean ====
section
/-! SUPPORT. Lengths of the byte sequences the commands build, and slices of concatenations. -/

namespace Sys2Proof.Machine

@[simp] theorem be32_length (v : Word) : (be32 v).length = 4 := rfl

@[simp] theorem be64_length (v : BitVec 64) : (be64 v).length = 8 := rfl

@[simp] theorem Digest.bytes_length (d : Digest) : d.bytes.length = 20 := rfl

@[simp] theorem hexText_length (b : List Byte) : (hexText b).length = 2 * b.length := by
  induction b with
  | nil => rfl
  | cons x r ih => simp only [hexText, List.length_cons, ih]; omega

@[simp] theorem tagText_length (d : Digest) : (tagText d).length = 40 := by simp [tagText]

/-- The slice of a concatenation that is exactly its middle part. -/
theorem slice_append (a b c : List Byte) : slice (a ++ b ++ c) a.length (a.length + b.length) = b := by
  simp [slice, List.append_assoc]

theorem slice_length (b : List Byte) (i j : Nat) : (slice b i j).length = min (j - i) (b.length - i) := by
  simp [slice]

theorem u32_toNat {n : Nat} (h : n < 2 ^ 32) : (u32 n).toNat = n := by
  simp only [u32, BitVec.toNat_ofNat]
  exact Nat.mod_eq_of_lt h

end Sys2Proof.Machine
end

