-- ==== Sys2Proof/Laws/Memory.lean ====
section
/-! SUPPORT. BUF and KEY: read after write, bytes and ranges, and the canonical form every operation keeps. -/

namespace Sys2Proof.Machine

@[simp] theorem Memory.read_nil (a : Nat) : Memory.read [] a = none := rfl

@[simp] theorem Memory.read_cons (k : Nat) (v : Byte) (t : Memory) (a : Nat) :
    Memory.read ((k, v) :: t) a = if k = a then some v else Memory.read t a := rfl

/-- A byte reads back as written. -/
@[simp] theorem Memory.read_write_same (m : Memory) (a : Nat) (b : Byte) : (m.write a b).read a = some b := by
  induction m with
  | nil => simp [Memory.write]
  | cons c t ih =>
    obtain ⟨k, v⟩ := c
    unfold Memory.write
    split
    · simp
    · split
      · simp
      · rename_i h1 h2
        simp [ih, Ne.symm h2]

/-- A write leaves every other byte alone. -/
theorem Memory.read_write_ne (m : Memory) {a x : Nat} (b : Byte) (h : x ≠ a) : (m.write a b).read x = m.read x := by
  induction m with
  | nil => simp [Memory.write, Ne.symm h]
  | cons c t ih =>
    obtain ⟨k, v⟩ := c
    unfold Memory.write
    split
    · simp [Ne.symm h]
    · split
      · rename_i h1 h2
        subst h2
        simp [Ne.symm h]
      · simp [ih]

/-- The offsets listed after a write: the one written and those before. -/
theorem Memory.mem_write {m : Memory} {a : Nat} {b : Byte} {c : Host.Cell} (h : c ∈ m.write a b) :
    c.1 = a ∨ c ∈ m := by
  induction m with
  | nil => simp [Memory.write] at h; simp [h]
  | cons d t ih =>
    obtain ⟨k, v⟩ := d
    unfold Memory.write at h
    split at h
    · rcases List.mem_cons.1 h with rfl | h
      · exact .inl rfl
      · exact .inr h
    · split at h
      · rcases List.mem_cons.1 h with rfl | h
        · exact .inl rfl
        · exact .inr (List.mem_cons_of_mem _ h)
      · rcases List.mem_cons.1 h with rfl | h
        · exact .inr (List.mem_cons_self ..)
        · exact (ih h).imp id (List.mem_cons_of_mem _)

/-- One write keeps the canonical form. -/
theorem Memory.write_wf {m : Memory} (a : Nat) (b : Byte) (h : m.wf) : (m.write a b).wf := by
  induction m with
  | nil => simp [Memory.wf, Memory.write]
  | cons d t ih =>
    obtain ⟨k, v⟩ := d
    obtain ⟨hk, ht⟩ := List.pairwise_cons.1 h
    unfold Memory.write
    split
    · rename_i hlt
      refine List.pairwise_cons.2 ⟨fun c hc => ?_, h⟩
      rcases List.mem_cons.1 hc with rfl | hc
      · exact hlt
      · exact Nat.lt_trans hlt (hk c hc)
    · split
      · rename_i h1 h2
        subst h2
        exact List.pairwise_cons.2 ⟨fun c hc => hk c hc, ht⟩
      · rename_i h1 h2
        refine List.pairwise_cons.2 ⟨fun c hc => ?_, ih ht⟩
        rcases Memory.mem_write hc with rfl | hc
        · show k < c.1
          omega
        · exact hk c hc

/-- A range write keeps the canonical form. -/
theorem Memory.writeBytes_wf {m : Memory} (off : Nat) (bs : List Byte) (h : m.wf) : (m.writeBytes off bs).wf := by
  induction bs generalizing m off with
  | nil => exact h
  | cons b bs ih => exact ih _ (Memory.write_wf _ _ h)

/-- The offsets listed after a range write: those of the range and those before. -/
theorem Memory.mem_writeBytes {m : Memory} {off : Nat} {bs : List Byte} {c : Host.Cell}
    (h : c ∈ m.writeBytes off bs) : (off ≤ c.1 ∧ c.1 < off + bs.length) ∨ c ∈ m := by
  induction bs generalizing m off with
  | nil => exact .inr h
  | cons b bs ih =>
    rcases ih h with h | h
    · left; simp only [List.length_cons]; omega
    · rcases Memory.mem_write h with h | h
      · left; simp only [List.length_cons]; omega
      · exact .inr h

/-- A range write leaves every byte outside the range alone. -/
theorem Memory.read_writeBytes_outside {m : Memory} {off a : Nat} {bs : List Byte}
    (h : a < off ∨ off + bs.length ≤ a) : (m.writeBytes off bs).read a = m.read a := by
  induction bs generalizing m off with
  | nil => rfl
  | cons b bs ih =>
    simp only [List.length_cons] at h
    rw [Memory.writeBytes, ih (by omega), Memory.read_write_ne _ _ (by omega)]

/-- A byte of the range reads back as written. -/
theorem Memory.read_writeBytes_inside {m : Memory} {off i : Nat} {bs : List Byte} (h : i < bs.length) :
    (m.writeBytes off bs).read (off + i) = some bs[i] := by
  induction bs generalizing m off i with
  | nil => simp at h
  | cons b bs ih =>
    cases i with
    | zero => rw [Memory.writeBytes, Memory.read_writeBytes_outside (by omega)]; simp
    | succ j =>
      have := ih (m := m.write off b) (off := off + 1) (i := j) (by simpa using h)
      rw [Memory.writeBytes, show off + (j + 1) = off + 1 + j by omega, this]
      simp

theorem Memory.readBytes_succ (m : Memory) (off n : Nat) {bs : List Byte} (h : m.readBytes off (n + 1) = some bs) :
    ∃ b r, m.read off = some b ∧ m.readBytes (off + 1) n = some r ∧ bs = b :: r := by
  rw [Memory.readBytes] at h
  split at h
  · rename_i b r hb hr
    exact ⟨b, r, hb, hr, by simpa using h.symm⟩
  · cases h

/-- A range read gives as many bytes as asked for. -/
theorem Memory.readBytes_length {m : Memory} {off n : Nat} {bs : List Byte} (h : m.readBytes off n = some bs) :
    bs.length = n := by
  induction n generalizing off bs with
  | zero => simp [Memory.readBytes] at h; simp [h]
  | succ n ih =>
    obtain ⟨b, r, -, hr, rfl⟩ := Memory.readBytes_succ m off n h
    simp [ih hr]

/-- A range read gives the byte at each offset. -/
theorem Memory.readBytes_get {m : Memory} {off n i : Nat} {bs : List Byte} (h : m.readBytes off n = some bs)
    (hi : i < bs.length) : m.read (off + i) = some bs[i] := by
  induction n generalizing off bs i with
  | zero => simp [Memory.readBytes] at h; simp [h] at hi
  | succ n ih =>
    obtain ⟨b, r, hb, hr, rfl⟩ := Memory.readBytes_succ m off n h
    cases i with
    | zero => simpa using hb
    | succ j =>
      have := ih hr (i := j) (by simpa using hi)
      rw [show off + (j + 1) = off + 1 + j by omega, this]
      simp

/-- Two memories that agree on a range read the same there. -/
theorem Memory.readBytes_congr {m m' : Memory} {off n : Nat}
    (h : ∀ a, off ≤ a → a < off + n → m.read a = m'.read a) : m.readBytes off n = m'.readBytes off n := by
  induction n generalizing off with
  | zero => rfl
  | succ n ih =>
    rw [Memory.readBytes, Memory.readBytes, h off (by omega) (by omega),
      ih fun a h1 h2 => h a (by omega) (by omega)]

/-- A range read has no value exactly where some byte of the range has none. -/
theorem Memory.readBytes_eq_none_iff {m : Memory} {off n : Nat} :
    m.readBytes off n = none ↔ ∃ a, off ≤ a ∧ a < off + n ∧ m.read a = none := by
  induction n generalizing off with
  | zero => simp [Memory.readBytes]; omega
  | succ n ih =>
    rw [Memory.readBytes]
    constructor
    · intro h
      split at h
      · cases h
      · rename_i hx
        cases hr : m.read off with
        | none => exact ⟨off, by omega, by omega, hr⟩
        | some b =>
          cases hn : m.readBytes (off + 1) n with
          | none =>
            obtain ⟨a, h1, h2, h3⟩ := ih.1 hn
            exact ⟨a, by omega, by omega, h3⟩
          | some r => exact absurd hn (hx b r hr)
    · rintro ⟨a, h1, h2, h3⟩
      split
      · rename_i b r hb hr
        exfalso
        rcases Nat.lt_or_ge off a with hlt | hge
        · have := (ih (off := off + 1)).2 ⟨a, by omega, by omega, h3⟩
          rw [this] at hr; cases hr
        · rw [show a = off by omega, hb] at h3; cases h3
      · rfl

/-- A range reads back as written. -/
theorem Memory.readBytes_writeBytes (m : Memory) (off : Nat) (bs : List Byte) :
    (m.writeBytes off bs).readBytes off bs.length = some bs := by
  induction bs generalizing m off with
  | nil => rfl
  | cons b bs ih =>
    have h : (m.writeBytes off (b :: bs)).read off = some b :=
      Memory.read_writeBytes_inside (off := off) (bs := b :: bs) (i := 0) (Nat.succ_pos _)
    have h' : (m.writeBytes off (b :: bs)).readBytes (off + 1) bs.length = some bs := ih ..
    rw [List.length_cons, Memory.readBytes, h, h']

end Sys2Proof.Machine
end

