-- ==== Sys2Proof/Laws/State.lean ====
section
/-! SUPPORT. What each update of the state does to each field: one lemma per field per update. -/

namespace Sys2Proof.Machine

variable (s : State)

@[simp] theorem State.accept_params (w : Word) : (s.accept w).params = s.params := rfl
@[simp] theorem State.accept_ie (w : Word) : (s.accept w).ie = s.ie := rfl
@[simp] theorem State.accept_keyLock (w : Word) : (s.accept w).keyLock = s.keyLock := rfl
@[simp] theorem State.accept_hashSel (w : Word) : (s.accept w).hashSel = s.hashSel := rfl
@[simp] theorem State.accept_busy (w : Word) : (s.accept w).busy = true := rfl
@[simp] theorem State.accept_done (w : Word) : (s.accept w).done = false := rfl
@[simp] theorem State.accept_busyWr (w : Word) : (s.accept w).busyWr = s.busyWr := rfl
@[simp] theorem State.accept_lockWr (w : Word) : (s.accept w).lockWr = s.lockWr := rfl
@[simp] theorem State.accept_code (w : Word) : (s.accept w).code = s.code := rfl
@[simp] theorem State.accept_src (w : Word) : (s.accept w).src = s.src := rfl
@[simp] theorem State.accept_len (w : Word) : (s.accept w).len = s.len := rfl
@[simp] theorem State.accept_dst (w : Word) : (s.accept w).dst = s.dst := rfl
@[simp] theorem State.accept_now (w : Word) : (s.accept w).now = s.now := rfl
@[simp] theorem State.accept_keyLen (w : Word) : (s.accept w).keyLen = s.keyLen := rfl
@[simp] theorem State.accept_outOff (w : Word) : (s.accept w).outOff = s.outOff := rfl
@[simp] theorem State.accept_outLen (w : Word) : (s.accept w).outLen = s.outLen := rfl
@[simp] theorem State.accept_ts (w : Word) : (s.accept w).ts = s.ts := rfl
@[simp] theorem State.accept_crcState (w : Word) : (s.accept w).crcState = s.crcState := rfl
@[simp] theorem State.accept_digest (w : Word) : (s.accept w).digest = s.digest := rfl
@[simp] theorem State.accept_latch (w : Word) : (s.accept w).latch = { op := w.extractLsb' 0 8, rsv := w.extractLsb' 8 24, src := s.src, len := s.len, dst := s.dst, now := s.now, keyLen := s.keyLen, hash := s.hashSel } := rfl
@[simp] theorem State.accept_buf (w : Word) : (s.accept w).buf = s.buf := rfl
@[simp] theorem State.accept_key (w : Word) : (s.accept w).key = s.key := rfl
@[simp] theorem State.accept_resetLine (w : Word) : (s.accept w).resetLine = s.resetLine := rfl
@[simp] theorem State.accept_inputs (w : Word) : (s.accept w).inputs = s.inputs := rfl
@[simp] theorem State.accept_resp (w : Word) : (s.accept w).resp = s.resp := rfl
@[simp] theorem State.accept_draws (w : Word) : (s.accept w).draws = s.draws := rfl

@[simp] theorem State.complete_params (c : Code) (o n : Word) : (s.complete c o n).params = s.params := rfl
@[simp] theorem State.complete_ie (c : Code) (o n : Word) : (s.complete c o n).ie = s.ie := rfl
@[simp] theorem State.complete_keyLock (c : Code) (o n : Word) : (s.complete c o n).keyLock = s.keyLock := rfl
@[simp] theorem State.complete_hashSel (c : Code) (o n : Word) : (s.complete c o n).hashSel = s.hashSel := rfl
@[simp] theorem State.complete_busy (c : Code) (o n : Word) : (s.complete c o n).busy = false := rfl
@[simp] theorem State.complete_done (c : Code) (o n : Word) : (s.complete c o n).done = true := rfl
@[simp] theorem State.complete_busyWr (c : Code) (o n : Word) : (s.complete c o n).busyWr = s.busyWr := rfl
@[simp] theorem State.complete_lockWr (c : Code) (o n : Word) : (s.complete c o n).lockWr = s.lockWr := rfl
@[simp] theorem State.complete_code (c : Code) (o n : Word) : (s.complete c o n).code = c := rfl
@[simp] theorem State.complete_src (c : Code) (o n : Word) : (s.complete c o n).src = s.src := rfl
@[simp] theorem State.complete_len (c : Code) (o n : Word) : (s.complete c o n).len = s.len := rfl
@[simp] theorem State.complete_dst (c : Code) (o n : Word) : (s.complete c o n).dst = s.dst := rfl
@[simp] theorem State.complete_now (c : Code) (o n : Word) : (s.complete c o n).now = s.now := rfl
@[simp] theorem State.complete_keyLen (c : Code) (o n : Word) : (s.complete c o n).keyLen = s.keyLen := rfl
@[simp] theorem State.complete_outOff (c : Code) (o n : Word) : (s.complete c o n).outOff = if c = .ok then o else 0 := rfl
@[simp] theorem State.complete_outLen (c : Code) (o n : Word) : (s.complete c o n).outLen = if c = .ok then n else 0 := rfl
@[simp] theorem State.complete_ts (c : Code) (o n : Word) : (s.complete c o n).ts = s.ts := rfl
@[simp] theorem State.complete_crcState (c : Code) (o n : Word) : (s.complete c o n).crcState = s.crcState := rfl
@[simp] theorem State.complete_digest (c : Code) (o n : Word) : (s.complete c o n).digest = s.digest := rfl
@[simp] theorem State.complete_latch (c : Code) (o n : Word) : (s.complete c o n).latch = s.latch := rfl
@[simp] theorem State.complete_buf (c : Code) (o n : Word) : (s.complete c o n).buf = s.buf := rfl
@[simp] theorem State.complete_key (c : Code) (o n : Word) : (s.complete c o n).key = s.key := rfl
@[simp] theorem State.complete_resetLine (c : Code) (o n : Word) : (s.complete c o n).resetLine = s.resetLine := rfl
@[simp] theorem State.complete_inputs (c : Code) (o n : Word) : (s.complete c o n).inputs = s.inputs := rfl
@[simp] theorem State.complete_resp (c : Code) (o n : Word) : (s.complete c o n).resp = s.resp := rfl
@[simp] theorem State.complete_draws (c : Code) (o n : Word) : (s.complete c o n).draws = s.draws := rfl

@[simp] theorem State.writeStatus_params (d : Word) : (s.writeStatus d).params = s.params := rfl
@[simp] theorem State.writeStatus_ie (d : Word) : (s.writeStatus d).ie = s.ie := rfl
@[simp] theorem State.writeStatus_keyLock (d : Word) : (s.writeStatus d).keyLock = s.keyLock := rfl
@[simp] theorem State.writeStatus_hashSel (d : Word) : (s.writeStatus d).hashSel = s.hashSel := rfl
@[simp] theorem State.writeStatus_busy (d : Word) : (s.writeStatus d).busy = s.busy := rfl
@[simp] theorem State.writeStatus_done (d : Word) : (s.writeStatus d).done = (s.done && !d.getLsbD 1) := rfl
@[simp] theorem State.writeStatus_busyWr (d : Word) : (s.writeStatus d).busyWr = (s.busyWr && !d.getLsbD 2) := rfl
@[simp] theorem State.writeStatus_lockWr (d : Word) : (s.writeStatus d).lockWr = (s.lockWr && !d.getLsbD 3) := rfl
@[simp] theorem State.writeStatus_code (d : Word) : (s.writeStatus d).code = s.code := rfl
@[simp] theorem State.writeStatus_src (d : Word) : (s.writeStatus d).src = s.src := rfl
@[simp] theorem State.writeStatus_len (d : Word) : (s.writeStatus d).len = s.len := rfl
@[simp] theorem State.writeStatus_dst (d : Word) : (s.writeStatus d).dst = s.dst := rfl
@[simp] theorem State.writeStatus_now (d : Word) : (s.writeStatus d).now = s.now := rfl
@[simp] theorem State.writeStatus_keyLen (d : Word) : (s.writeStatus d).keyLen = s.keyLen := rfl
@[simp] theorem State.writeStatus_outOff (d : Word) : (s.writeStatus d).outOff = s.outOff := rfl
@[simp] theorem State.writeStatus_outLen (d : Word) : (s.writeStatus d).outLen = s.outLen := rfl
@[simp] theorem State.writeStatus_ts (d : Word) : (s.writeStatus d).ts = s.ts := rfl
@[simp] theorem State.writeStatus_crcState (d : Word) : (s.writeStatus d).crcState = s.crcState := rfl
@[simp] theorem State.writeStatus_digest (d : Word) : (s.writeStatus d).digest = s.digest := rfl
@[simp] theorem State.writeStatus_latch (d : Word) : (s.writeStatus d).latch = s.latch := rfl
@[simp] theorem State.writeStatus_buf (d : Word) : (s.writeStatus d).buf = s.buf := rfl
@[simp] theorem State.writeStatus_key (d : Word) : (s.writeStatus d).key = s.key := rfl
@[simp] theorem State.writeStatus_resetLine (d : Word) : (s.writeStatus d).resetLine = s.resetLine := rfl
@[simp] theorem State.writeStatus_inputs (d : Word) : (s.writeStatus d).inputs = s.inputs := rfl
@[simp] theorem State.writeStatus_resp (d : Word) : (s.writeStatus d).resp = s.resp := rfl
@[simp] theorem State.writeStatus_draws (d : Word) : (s.writeStatus d).draws = s.draws := rfl

@[simp] theorem State.writeCtrlFields_params (d : Word) : (s.writeCtrlFields d).params = s.params := rfl
@[simp] theorem State.writeCtrlFields_ie (d : Word) : (s.writeCtrlFields d).ie = d.getLsbD 0 := rfl
@[simp] theorem State.writeCtrlFields_keyLock (d : Word) : (s.writeCtrlFields d).keyLock = (s.keyLock || d.getLsbD 1) := rfl
@[simp] theorem State.writeCtrlFields_hashSel (d : Word) : (s.writeCtrlFields d).hashSel = d.extractLsb' 2 2 := rfl
@[simp] theorem State.writeCtrlFields_busy (d : Word) : (s.writeCtrlFields d).busy = s.busy := rfl
@[simp] theorem State.writeCtrlFields_done (d : Word) : (s.writeCtrlFields d).done = s.done := rfl
@[simp] theorem State.writeCtrlFields_busyWr (d : Word) : (s.writeCtrlFields d).busyWr = s.busyWr := rfl
@[simp] theorem State.writeCtrlFields_lockWr (d : Word) : (s.writeCtrlFields d).lockWr = s.lockWr := rfl
@[simp] theorem State.writeCtrlFields_code (d : Word) : (s.writeCtrlFields d).code = s.code := rfl
@[simp] theorem State.writeCtrlFields_src (d : Word) : (s.writeCtrlFields d).src = s.src := rfl
@[simp] theorem State.writeCtrlFields_len (d : Word) : (s.writeCtrlFields d).len = s.len := rfl
@[simp] theorem State.writeCtrlFields_dst (d : Word) : (s.writeCtrlFields d).dst = s.dst := rfl
@[simp] theorem State.writeCtrlFields_now (d : Word) : (s.writeCtrlFields d).now = s.now := rfl
@[simp] theorem State.writeCtrlFields_keyLen (d : Word) : (s.writeCtrlFields d).keyLen = s.keyLen := rfl
@[simp] theorem State.writeCtrlFields_outOff (d : Word) : (s.writeCtrlFields d).outOff = s.outOff := rfl
@[simp] theorem State.writeCtrlFields_outLen (d : Word) : (s.writeCtrlFields d).outLen = s.outLen := rfl
@[simp] theorem State.writeCtrlFields_ts (d : Word) : (s.writeCtrlFields d).ts = s.ts := rfl
@[simp] theorem State.writeCtrlFields_crcState (d : Word) : (s.writeCtrlFields d).crcState = s.crcState := rfl
@[simp] theorem State.writeCtrlFields_digest (d : Word) : (s.writeCtrlFields d).digest = s.digest := rfl
@[simp] theorem State.writeCtrlFields_latch (d : Word) : (s.writeCtrlFields d).latch = s.latch := rfl
@[simp] theorem State.writeCtrlFields_buf (d : Word) : (s.writeCtrlFields d).buf = s.buf := rfl
@[simp] theorem State.writeCtrlFields_key (d : Word) : (s.writeCtrlFields d).key = s.key := rfl
@[simp] theorem State.writeCtrlFields_resetLine (d : Word) : (s.writeCtrlFields d).resetLine = s.resetLine := rfl
@[simp] theorem State.writeCtrlFields_inputs (d : Word) : (s.writeCtrlFields d).inputs = s.inputs := rfl
@[simp] theorem State.writeCtrlFields_resp (d : Word) : (s.writeCtrlFields d).resp = s.resp := rfl
@[simp] theorem State.writeCtrlFields_draws (d : Word) : (s.writeCtrlFields d).draws = s.draws := rfl

@[simp] theorem State.clearRegisters_params : (s.clearRegisters).params = s.params := rfl
@[simp] theorem State.clearRegisters_ie : (s.clearRegisters).ie = false := rfl
@[simp] theorem State.clearRegisters_keyLock : (s.clearRegisters).keyLock = s.keyLock := rfl
@[simp] theorem State.clearRegisters_hashSel : (s.clearRegisters).hashSel = 0 := rfl
@[simp] theorem State.clearRegisters_busy : (s.clearRegisters).busy = false := rfl
@[simp] theorem State.clearRegisters_done : (s.clearRegisters).done = false := rfl
@[simp] theorem State.clearRegisters_busyWr : (s.clearRegisters).busyWr = false := rfl
@[simp] theorem State.clearRegisters_lockWr : (s.clearRegisters).lockWr = false := rfl
@[simp] theorem State.clearRegisters_code : (s.clearRegisters).code = .ok := rfl
@[simp] theorem State.clearRegisters_src : (s.clearRegisters).src = 0 := rfl
@[simp] theorem State.clearRegisters_len : (s.clearRegisters).len = 0 := rfl
@[simp] theorem State.clearRegisters_dst : (s.clearRegisters).dst = 0 := rfl
@[simp] theorem State.clearRegisters_now : (s.clearRegisters).now = 0 := rfl
@[simp] theorem State.clearRegisters_keyLen : (s.clearRegisters).keyLen = s.keyLen := rfl
@[simp] theorem State.clearRegisters_outOff : (s.clearRegisters).outOff = 0 := rfl
@[simp] theorem State.clearRegisters_outLen : (s.clearRegisters).outLen = 0 := rfl
@[simp] theorem State.clearRegisters_ts : (s.clearRegisters).ts = 0 := rfl
@[simp] theorem State.clearRegisters_crcState : (s.clearRegisters).crcState = 0xFFFFFFFF := rfl
@[simp] theorem State.clearRegisters_digest : (s.clearRegisters).digest = Digest.zero := rfl
@[simp] theorem State.clearRegisters_latch : (s.clearRegisters).latch = Latch.zero := rfl
@[simp] theorem State.clearRegisters_buf : (s.clearRegisters).buf = s.buf := rfl
@[simp] theorem State.clearRegisters_key : (s.clearRegisters).key = s.key := rfl
@[simp] theorem State.clearRegisters_resetLine : (s.clearRegisters).resetLine = s.resetLine := rfl
@[simp] theorem State.clearRegisters_inputs : (s.clearRegisters).inputs = s.inputs := rfl
@[simp] theorem State.clearRegisters_resp : (s.clearRegisters).resp = s.resp := rfl
@[simp] theorem State.clearRegisters_draws : (s.clearRegisters).draws = s.draws := rfl

@[simp] theorem State.hardwareReset_params : (s.hardwareReset).params = s.params := rfl
@[simp] theorem State.hardwareReset_ie : (s.hardwareReset).ie = false := rfl
@[simp] theorem State.hardwareReset_keyLock : (s.hardwareReset).keyLock = false := rfl
@[simp] theorem State.hardwareReset_hashSel : (s.hardwareReset).hashSel = 0 := rfl
@[simp] theorem State.hardwareReset_busy : (s.hardwareReset).busy = false := rfl
@[simp] theorem State.hardwareReset_done : (s.hardwareReset).done = false := rfl
@[simp] theorem State.hardwareReset_busyWr : (s.hardwareReset).busyWr = false := rfl
@[simp] theorem State.hardwareReset_lockWr : (s.hardwareReset).lockWr = false := rfl
@[simp] theorem State.hardwareReset_code : (s.hardwareReset).code = .ok := rfl
@[simp] theorem State.hardwareReset_src : (s.hardwareReset).src = 0 := rfl
@[simp] theorem State.hardwareReset_len : (s.hardwareReset).len = 0 := rfl
@[simp] theorem State.hardwareReset_dst : (s.hardwareReset).dst = 0 := rfl
@[simp] theorem State.hardwareReset_now : (s.hardwareReset).now = 0 := rfl
@[simp] theorem State.hardwareReset_keyLen : (s.hardwareReset).keyLen = 0 := rfl
@[simp] theorem State.hardwareReset_outOff : (s.hardwareReset).outOff = 0 := rfl
@[simp] theorem State.hardwareReset_outLen : (s.hardwareReset).outLen = 0 := rfl
@[simp] theorem State.hardwareReset_ts : (s.hardwareReset).ts = 0 := rfl
@[simp] theorem State.hardwareReset_crcState : (s.hardwareReset).crcState = 0xFFFFFFFF := rfl
@[simp] theorem State.hardwareReset_digest : (s.hardwareReset).digest = Digest.zero := rfl
@[simp] theorem State.hardwareReset_latch : (s.hardwareReset).latch = Latch.zero := rfl
@[simp] theorem State.hardwareReset_buf : (s.hardwareReset).buf = [] := rfl
@[simp] theorem State.hardwareReset_key : (s.hardwareReset).key = [] := rfl
@[simp] theorem State.hardwareReset_resetLine : (s.hardwareReset).resetLine = true := rfl
@[simp] theorem State.hardwareReset_inputs : (s.hardwareReset).inputs = s.inputs := rfl
@[simp] theorem State.hardwareReset_resp : (s.hardwareReset).resp = s.resp := rfl
@[simp] theorem State.hardwareReset_draws : (s.hardwareReset).draws = s.draws := rfl

@[simp] theorem State.answer_params (w : Word) : (s.answer w).params = s.params := rfl
@[simp] theorem State.answer_ie (w : Word) : (s.answer w).ie = s.ie := rfl
@[simp] theorem State.answer_keyLock (w : Word) : (s.answer w).keyLock = s.keyLock := rfl
@[simp] theorem State.answer_hashSel (w : Word) : (s.answer w).hashSel = s.hashSel := rfl
@[simp] theorem State.answer_busy (w : Word) : (s.answer w).busy = s.busy := rfl
@[simp] theorem State.answer_done (w : Word) : (s.answer w).done = s.done := rfl
@[simp] theorem State.answer_busyWr (w : Word) : (s.answer w).busyWr = s.busyWr := rfl
@[simp] theorem State.answer_lockWr (w : Word) : (s.answer w).lockWr = s.lockWr := rfl
@[simp] theorem State.answer_code (w : Word) : (s.answer w).code = s.code := rfl
@[simp] theorem State.answer_src (w : Word) : (s.answer w).src = s.src := rfl
@[simp] theorem State.answer_len (w : Word) : (s.answer w).len = s.len := rfl
@[simp] theorem State.answer_dst (w : Word) : (s.answer w).dst = s.dst := rfl
@[simp] theorem State.answer_now (w : Word) : (s.answer w).now = s.now := rfl
@[simp] theorem State.answer_keyLen (w : Word) : (s.answer w).keyLen = s.keyLen := rfl
@[simp] theorem State.answer_outOff (w : Word) : (s.answer w).outOff = s.outOff := rfl
@[simp] theorem State.answer_outLen (w : Word) : (s.answer w).outLen = s.outLen := rfl
@[simp] theorem State.answer_ts (w : Word) : (s.answer w).ts = s.ts := rfl
@[simp] theorem State.answer_crcState (w : Word) : (s.answer w).crcState = s.crcState := rfl
@[simp] theorem State.answer_digest (w : Word) : (s.answer w).digest = s.digest := rfl
@[simp] theorem State.answer_latch (w : Word) : (s.answer w).latch = s.latch := rfl
@[simp] theorem State.answer_buf (w : Word) : (s.answer w).buf = s.buf := rfl
@[simp] theorem State.answer_key (w : Word) : (s.answer w).key = s.key := rfl
@[simp] theorem State.answer_resetLine (w : Word) : (s.answer w).resetLine = s.resetLine := rfl
@[simp] theorem State.answer_inputs (w : Word) : (s.answer w).inputs = s.inputs := rfl
@[simp] theorem State.answer_resp (w : Word) : (s.answer w).resp = .data w := rfl
@[simp] theorem State.answer_draws (w : Word) : (s.answer w).draws = s.draws := rfl

@[simp] theorem State.answerFree_params : (s.answerFree).params = s.params := rfl
@[simp] theorem State.answerFree_ie : (s.answerFree).ie = s.ie := rfl
@[simp] theorem State.answerFree_keyLock : (s.answerFree).keyLock = s.keyLock := rfl
@[simp] theorem State.answerFree_hashSel : (s.answerFree).hashSel = s.hashSel := rfl
@[simp] theorem State.answerFree_busy : (s.answerFree).busy = s.busy := rfl
@[simp] theorem State.answerFree_done : (s.answerFree).done = s.done := rfl
@[simp] theorem State.answerFree_busyWr : (s.answerFree).busyWr = s.busyWr := rfl
@[simp] theorem State.answerFree_lockWr : (s.answerFree).lockWr = s.lockWr := rfl
@[simp] theorem State.answerFree_code : (s.answerFree).code = s.code := rfl
@[simp] theorem State.answerFree_src : (s.answerFree).src = s.src := rfl
@[simp] theorem State.answerFree_len : (s.answerFree).len = s.len := rfl
@[simp] theorem State.answerFree_dst : (s.answerFree).dst = s.dst := rfl
@[simp] theorem State.answerFree_now : (s.answerFree).now = s.now := rfl
@[simp] theorem State.answerFree_keyLen : (s.answerFree).keyLen = s.keyLen := rfl
@[simp] theorem State.answerFree_outOff : (s.answerFree).outOff = s.outOff := rfl
@[simp] theorem State.answerFree_outLen : (s.answerFree).outLen = s.outLen := rfl
@[simp] theorem State.answerFree_ts : (s.answerFree).ts = s.ts := rfl
@[simp] theorem State.answerFree_crcState : (s.answerFree).crcState = s.crcState := rfl
@[simp] theorem State.answerFree_digest : (s.answerFree).digest = s.digest := rfl
@[simp] theorem State.answerFree_latch : (s.answerFree).latch = s.latch := rfl
@[simp] theorem State.answerFree_buf : (s.answerFree).buf = s.buf := rfl
@[simp] theorem State.answerFree_key : (s.answerFree).key = s.key := rfl
@[simp] theorem State.answerFree_resetLine : (s.answerFree).resetLine = s.resetLine := rfl
@[simp] theorem State.answerFree_inputs : (s.answerFree).inputs = s.inputs := rfl
@[simp] theorem State.answerFree_resp : (s.answerFree).resp = .data (Config.freeWord s.draws) := rfl
@[simp] theorem State.answerFree_draws : (s.answerFree).draws = s.draws + 1 := rfl

end Sys2Proof.Machine
end

