-- ==== Sys2Proof/Laws/Ops.lean ====
section
/-! SUPPORT. What each shared operation can do, said once: the common checks, the operand reads, the engine's turn,
one step. -/

namespace Sys2Proof.Machine

variable {s s' : State} {i : Instr}

@[simp] theorem raise_next (c : Code) : s.raise c = .next s' ↔ s' = s.complete c 0 0 := by
  simp [State.raise, eq_comm]

@[simp] theorem finish_next (o n : Word) : s.finish o n = .next s' ↔ s' = s.complete .ok o n := by
  simp [State.finish, eq_comm]

/-- A common check fails with one of three codes. -/
theorem commonCheck_code {c : Code} (h : commonCheck i s = some c) :
    c = .configError ∨ c = .rangeError ∨ c = .overlapError := by
  unfold commonCheck at h
  split_ifs at h <;> simp_all

/-- The common checks pass exactly when every operand the command uses is as R96 to R99 ask. -/
theorem commonCheck_none_iff : commonCheck i s = none ↔
    (usesKey i = true → s.latch.hash = 0 ∧ s.keyCount ≤ s.params.keySize) ∧
    (readsSrc i = true → s.srcOff + s.srcLen ≤ s.params.bufSize) ∧
    (writesDst i = true → s.dstOff + outputLen i s.srcLen ≤ s.params.bufSize ∧
      overlap s.srcOff s.srcLen s.dstOff (outputLen i s.srcLen) = false) := by
  unfold commonCheck rangeOk
  cases usesKey i <;> cases readsSrc i <;> cases writesDst i <;> simp <;>
    split_ifs <;> simp_all

/-- The perform step after its common checks: a failing check's completion, or the command's own steps. -/
theorem checked_next {run : Result} (h : checked i s run = .next s') :
    (∃ c, commonCheck i s = some c ∧ s' = s.complete c 0 0) ∨ (commonCheck i s = none ∧ run = .next s') := by
  unfold checked at h
  split at h
  · rename_i c hc
    exact .inl ⟨c, hc, by simpa using h⟩
  · rename_i hc
    exact .inr ⟨hc, h⟩

theorem checked_of_none {run : Result} (h : commonCheck i s = none) : checked i s run = run := by
  simp [checked, h]

theorem checked_of_some {run : Result} {c : Code} (h : commonCheck i s = some c) :
    checked i s run = .next (s.complete c 0 0) := by
  simp [checked, h, State.raise]

/-- A command that goes on after reading its input read all of it. -/
theorem withInput_next {run : List Byte → Result} (h : s.withInput run = .next s') :
    ∃ bs, s.buf.readBytes s.srcOff s.srcLen = some bs ∧ run bs = .next s' := by
  unfold State.withInput at h
  split at h
  · rename_i bs hb
    exact ⟨bs, hb, h⟩
  · cases h

theorem withInput_of_some {run : List Byte → Result} {bs : List Byte}
    (h : s.buf.readBytes s.srcOff s.srcLen = some bs) : s.withInput run = run bs := by
  simp [State.withInput, h]

/-- A command that goes on after reading the key read all of it. -/
theorem withKey_next {run : List Byte → Result} (h : s.withKey run = .next s') :
    ∃ k, s.key.readBytes 0 s.keyCount = some k ∧ run k = .next s' := by
  unfold State.withKey at h
  split at h
  · rename_i k hk
    exact ⟨k, hk, h⟩
  · cases h

theorem withKey_of_some {run : List Byte → Result} {k : List Byte}
    (h : s.key.readBytes 0 s.keyCount = some k) : s.withKey run = run k := by
  simp [State.withKey, h]

/-- The engine's turn: nothing while idle, the decoded command's perform step or IllegalCommand while busy. -/
theorem perform_next (h : perform s = .next s') :
    (s.busy = false ∧ s' = s) ∨
    (s.busy = true ∧ ∃ i, decodeWord s.commandWord = .ok i ∧ exec i s = .next s') ∨
    (s.busy = true ∧ (∃ e, decodeWord s.commandWord = .error e) ∧ s' = s.complete .illegalCommand 0 0) := by
  unfold perform at h
  split at h
  · rename_i hb
    split at h
    · rename_i i hi
      exact .inr (.inl ⟨hb, i, hi, h⟩)
    · rename_i e he
      exact .inr (.inr ⟨hb, ⟨e, he⟩, by simpa [State.raiseIllegal] using h⟩)
  · rename_i hb
    exact .inl ⟨by simpa using hb, by simpa using h.symm⟩

/-- Everything one step can do, by the event that comes next. -/
theorem step_next (h : step s = .next s') :
    (s.inputs = [] ∧ perform s = .next s') ∨
    (∃ a w d r, s.inputs = .write a w d :: r ∧ s' = { s with inputs := r }.hostWrite a w d) ∨
    (∃ a w r, s.inputs = .read a w :: r ∧ s' = { s with inputs := r }.hostRead a w) ∨
    (∃ r, s.inputs = .engineTurn :: r ∧ perform { s with inputs := r } = .next s') ∨
    (∃ r, s.inputs = .assertReset :: r ∧ s' = { s with inputs := r }.hardwareReset) ∨
    (∃ r, s.inputs = .releaseReset :: r ∧ s' = { s with inputs := r, resetLine := false }) := by
  unfold step at h
  split at h
  · exact .inl ⟨‹_›, h⟩
  · exact .inr (.inl ⟨_, _, _, _, ‹_›, by simpa using h.symm⟩)
  · exact .inr (.inr (.inl ⟨_, _, _, ‹_›, by simpa using h.symm⟩))
  · exact .inr (.inr (.inr (.inl ⟨_, ‹_›, h⟩)))
  · exact .inr (.inr (.inr (.inr (.inl ⟨_, ‹_›, by simpa using h.symm⟩))))
  · exact .inr (.inr (.inr (.inr (.inr ⟨_, ‹_›, by simpa using h.symm⟩))))

@[simp] theorem freeBytes_length (d n : Nat) : (freeBytes d n).length = n := by
  induction n generalizing d with
  | zero => rfl
  | succ n ih => simp [freeBytes, ih]

/-- Abandoning a command changes BUF and the count of draws, nothing else. -/
theorem abandon_cases (s : State) : s.abandon = s ∨
    ∃ i, decodeWord s.commandWord = .ok i ∧ writesDst i = true ∧ commonCheck i s = none ∧
      s.abandon = { s with
        buf := s.buf.writeBytes s.dstOff (freeBytes s.draws (outputLen i s.srcLen))
        draws := s.draws + outputLen i s.srcLen } := by
  unfold State.abandon
  split
  · rename_i i hi
    split
    · rename_i hw
      simp only [Bool.and_eq_true, Option.isNone_iff_eq_none] at hw
      exact .inr ⟨i, hi, hw.1, hw.2, rfl⟩
    · exact .inl rfl
  · exact .inl rfl

end Sys2Proof.Machine
end

