-- ==== Sys2Proof/Laws/Checks.lean ====
section
/-! SUPPORT. The common checks in the statements' terms, the command word of an accepted command, and where offsets of
the register space lead. -/

namespace Sys2Proof.Machine

/-- `overlap` fails when the input is empty or one range ends before the other starts (R97). -/
theorem overlap_eq_false_iff {a n b m : Nat} (hm : 0 < m) :
    overlap a n b m = false ↔ n = 0 ∨ a + n ≤ b ∨ b + m ≤ a := by
  simp only [overlap, Bool.and_eq_false_iff, decide_eq_false_iff_not, not_lt]
  omega

theorem outputLen_pos {i : Instr} (n : Nat) (h : writesDst i = true) : 0 < outputLen i n := by
  cases i <;> simp [writesDst] at h <;> simp [outputLen]

/-- The common checks pass exactly under ChecksPass. -/
theorem commonCheck_eq_none_iff_checksPass (i : Instr) (s : State) :
    commonCheck i s = none ↔ ChecksPass i s := by
  rw [commonCheck_none_iff]
  refine and_congr Iff.rfl (and_congr Iff.rfl ?_)
  refine forall_congr' fun hw => and_congr Iff.rfl ?_
  rw [overlap_eq_false_iff (outputLen_pos _ hw)]
  simp only [State.srcLen, State.srcOff, State.dstOff, ← BitVec.toNat_inj]
  exact Iff.rfl

/-- A word is its RSV field above its OPCODE field (R72). -/
theorem fields_append (w : Word) : w.extractLsb' 8 24 ++ w.extractLsb' 0 8 = w := by
  apply BitVec.eq_of_getLsbD_eq
  intro i hi
  simp only [BitVec.getLsbD_append, BitVec.getLsbD_extractLsb']
  by_cases h : i < 8
  · simp [h]
  · have h24 : i - 8 < 24 := by omega
    simp [h, h24, show 8 + (i - 8) = i by omega]

/-- The command in flight right after an accept is the word written (R92). -/
@[simp] theorem commandWord_accept (s : State) (w : Word) : (s.accept w).commandWord = w := fields_append w

/-- The command in flight is a function of L alone. -/
theorem commandWord_congr {s t : State} (h : s.latch = t.latch) : s.commandWord = t.commandWord := by
  simp [State.commandWord, h]

theorem perform_of_idle {s : State} (h : s.busy = false) : perform s = .next s := by
  simp [perform, h]

theorem perform_of_ok {s : State} {i : Instr} (h : s.busy = true) (hd : decodeWord s.commandWord = .ok i) :
    perform s = exec i s := by
  simp [perform, h, hd]

theorem perform_of_error {s : State} {e : DecodeError} (h : s.busy = true)
    (hd : decodeWord s.commandWord = .error e) : perform s = .next (s.complete .illegalCommand 0 0) := by
  simp [perform, h, hd, State.raiseIllegal, State.raise]

/-- An offset of the register map reaches its register (R75). -/
theorem target_of_regAt {p : Params} {off : Nat} {r : Reg} (h : regAt off = some r) : target p off = .reg r := by
  simp [target, h]

/-- The register map ends at 0x050 (R74). -/
theorem regAt_eq_none {off : Nat} (h : 0x050 < off) : regAt off = none := by
  simp only [regAt, Option.map_eq_none_iff, List.find?_eq_none]
  intro e he
  simp only [regMap, List.mem_cons, List.not_mem_nil, or_false] at he
  rcases he with rfl | rfl | rfl | rfl | rfl | rfl | rfl | rfl | rfl | rfl | rfl | rfl | rfl | rfl | rfl | rfl |
    rfl | rfl | rfl <;> simp <;> omega

theorem Params.wf_iff (p : Params) : p.wf = true ↔
    p.bufSize % 4 = 0 ∧ 64 ≤ p.bufSize ∧ p.bufSize ≤ 0xF000 ∧ p.keySize % 4 = 0 ∧ 4 ≤ p.keySize ∧
      p.keySize ≤ 0xF00 ∧ p.base % 0x10000 = 0 := by
  simp [Params.wf, and_assoc]

/-- A BUF window offset reaches its BUF word (R75). -/
theorem target_bufWord {p : Params} {k : Nat} (hp : p.wf = true) (h : 4 * k + 3 < p.bufSize) :
    target p (0x1000 + 4 * k) = .bufWord k := by
  obtain ⟨-, -, -, -, -, hk, -⟩ := (Params.wf_iff p).1 hp
  have h1 : ¬ (0x100 ≤ 0x1000 + 4 * k ∧ 0x1000 + 4 * k < 0x100 + p.keySize) := by omega
  have h2 : 0x1000 ≤ 0x1000 + 4 * k ∧ 0x1000 + 4 * k < 0x1000 + p.bufSize := by omega
  simp only [target, regAt_eq_none (show 0x050 < 0x1000 + 4 * k by omega), Bool.and_eq_true, decide_eq_true_eq,
    if_neg h1, if_pos h2]
  congr 1
  omega

/-- A KEY window offset reaches its KEY word (R75). -/
theorem target_keyWord {p : Params} {k : Nat} (h : 4 * k + 3 < p.keySize) :
    target p (0x100 + 4 * k) = .keyWord k := by
  have h1 : 0x100 ≤ 0x100 + 4 * k ∧ 0x100 + 4 * k < 0x100 + p.keySize := by omega
  simp only [target, regAt_eq_none (show 0x050 < 0x100 + 4 * k by omega), Bool.and_eq_true, decide_eq_true_eq,
    if_pos h1]
  congr 1
  omega

/-- A host write to a register, once its offset is known. -/
theorem busWrite_reg {s : State} {off : Nat} {r : Reg} (ha : accessOk 32 off = true) (h : regAt off = some r)
    (d : Word) : s.busWrite off 32 d = { s.writeReg r d with resp := .written } := by
  rw [State.busWrite, if_pos ha, target_of_regAt h]

/-- A host read of a register, once its offset is known. -/
theorem busRead_reg {s : State} {off : Nat} {r : Reg} (ha : accessOk 32 off = true) (h : regAt off = some r) :
    s.busRead off 32 = if s.busy && r.hiddenWhileBusy then s.answerFree else s.answer (s.readReg r) := by
  rw [State.busRead, if_pos ha, target_of_regAt h]

end Sys2Proof.Machine
end

