-- ==== Sys2Proof/Laws/Commands.lean ====
section
/-! SUPPORT. What each command can do, said once: if its perform step completes, then in one of these ways. -/

namespace Sys2Proof.Machine

variable {s t : State}

/-- NOP (R102). -/
theorem execNop_next (h : exec .nop s = .next t) : t = s.complete .ok 0 0 := by
  have : exec .nop s = .next (s.complete .ok 0 0) := rfl
  rw [this] at h
  simpa using h.symm

/-- CRC_INIT (R119). -/
theorem execCrcInit_next (h : exec .crcInit s = .next t) :
    t = { s with crcState := crcInitial }.complete .ok 0 0 := by
  have : exec .crcInit s = .next ({ s with crcState := crcInitial }.complete .ok 0 0) := rfl
  rw [this] at h
  exact (Host.Outcome.next.inj h).symm

/-- CRC_UPDATE (R120): a failing check's completion, or the new running state. -/
theorem execCrcUpdate_next (h : exec .crcUpdate s = .next t) :
    (∃ c, commonCheck .crcUpdate s = some c ∧ t = s.complete c 0 0) ∨
    (commonCheck .crcUpdate s = none ∧ ∃ bs, s.buf.readBytes s.srcOff s.srcLen = some bs ∧
      t = { s with crcState := crcBytes s.crcState bs }.complete .ok 0 0) := by
  refine (checked_next h).imp id fun ⟨hn, h⟩ => ⟨hn, ?_⟩
  obtain ⟨bs, hb, h⟩ := withInput_next h
  exact ⟨bs, hb, (finish_next ..).1 h⟩

/-- CRC32 (R121). -/
theorem execCrc32_next (h : exec .crc32 s = .next t) :
    (∃ c, commonCheck .crc32 s = some c ∧ t = s.complete c 0 0) ∨
    (commonCheck .crc32 s = none ∧ ∃ bs, s.buf.readBytes s.srcOff s.srcLen = some bs ∧
      t = { s with crcState := crcBytes crcInitial bs }.complete .ok 0 0) := by
  refine (checked_next h).imp id fun ⟨hn, h⟩ => ⟨hn, ?_⟩
  obtain ⟨bs, hb, h⟩ := withInput_next h
  exact ⟨bs, hb, (finish_next ..).1 h⟩

/-- HMAC (R133). -/
theorem execHmac_next (h : exec .hmac s = .next t) :
    (∃ c, commonCheck .hmac s = some c ∧ t = s.complete c 0 0) ∨
    (commonCheck .hmac s = none ∧ ∃ bs k, s.buf.readBytes s.srcOff s.srcLen = some bs ∧
      s.key.readBytes 0 s.keyCount = some k ∧ t = { s with digest := hmacSha1 k bs }.complete .ok 0 0) := by
  refine (checked_next h).imp id fun ⟨hn, h⟩ => ⟨hn, ?_⟩
  obtain ⟨bs, hb, h⟩ := withInput_next h
  obtain ⟨k, hk, h⟩ := withKey_next h
  exact ⟨bs, k, hb, hk, (finish_next ..).1 h⟩

/-- HMAC_HEX (R134). -/
theorem execHmacHex_next (h : exec .hmacHex s = .next t) :
    (∃ c, commonCheck .hmacHex s = some c ∧ t = s.complete c 0 0) ∨
    (commonCheck .hmacHex s = none ∧ ∃ bs k, s.buf.readBytes s.srcOff s.srcLen = some bs ∧
      s.key.readBytes 0 s.keyCount = some k ∧
      t = { s with
        digest := hmacSha1 k bs
        buf := s.buf.writeBytes s.dstOff (tagText (hmacSha1 k bs)) }.complete .ok s.latch.dst 40) := by
  refine (checked_next h).imp id fun ⟨hn, h⟩ => ⟨hn, ?_⟩
  obtain ⟨bs, hb, h⟩ := withInput_next h
  obtain ⟨k, hk, h⟩ := withKey_next h
  exact ⟨bs, k, hb, hk, (finish_next ..).1 h⟩

/-- PACK_CSUM (R142). -/
theorem execPackCsum_next (h : exec .packCsum s = .next t) :
    (∃ c, commonCheck .packCsum s = some c ∧ t = s.complete c 0 0) ∨
    (commonCheck .packCsum s = none ∧ ∃ bs, s.buf.readBytes s.srcOff s.srcLen = some bs ∧
      t = { s with
        crcState := csumState (be32 s.latch.now) bs
        ts := s.latch.now
        buf := s.buf.writeBytes s.dstOff (csumBody bs s.latch.now) }.complete .ok s.latch.dst
          (u32 (s.srcLen + 12))) := by
  refine (checked_next h).imp id fun ⟨hn, h⟩ => ⟨hn, ?_⟩
  obtain ⟨bs, hb, h⟩ := withInput_next h
  exact ⟨bs, hb, (finish_next ..).1 h⟩

/-- UNPACK_CSUM (R143). -/
theorem execUnpackCsum_next (h : exec .unpackCsum s = .next t) :
    (∃ c, commonCheck .unpackCsum s = some c ∧ t = s.complete c 0 0) ∨
    (commonCheck .unpackCsum s = none ∧ ∃ bs, s.buf.readBytes s.srcOff s.srcLen = some bs ∧
      (t = s.complete .formatError 0 0 ∨ ∃ n c tsv code, s.srcLen = n + 12 ∧
        code ∈ [Code.ok, .checksumInvalid, .frameExpired] ∧
        t = { s with crcState := c, ts := tsv }.complete code (s.latch.src + 4) (u32 n))) := by
  refine (checked_next h).imp id fun ⟨hn, h⟩ => ⟨hn, ?_⟩
  obtain ⟨bs, hb, h⟩ := withInput_next h
  refine ⟨bs, hb, ?_⟩
  split_ifs at h with h1 h2
  · exact .inl ((raise_next _).1 h)
  · exact .inl ((raise_next _).1 h)
  · unfold unpackCsumFields at h
    simp only at h
    split_ifs at h
    · exact .inr ⟨_, _, _, .checksumInvalid, not_not.1 h2, by simp, (raise_next _).1 h⟩
    · exact .inr ⟨_, _, _, .ok, not_not.1 h2, by simp, (finish_next ..).1 h⟩
    · exact .inr ⟨_, _, _, .frameExpired, not_not.1 h2, by simp, (raise_next _).1 h⟩

/-- PACK_AUTH (R152). -/
theorem execPackAuth_next (h : exec .packAuth s = .next t) :
    (∃ c, commonCheck .packAuth s = some c ∧ t = s.complete c 0 0) ∨
    (commonCheck .packAuth s = none ∧ ∃ bs k, s.buf.readBytes s.srcOff s.srcLen = some bs ∧
      s.key.readBytes 0 s.keyCount = some k ∧
      t = { s with
        digest := hmacSha1 k bs
        buf := s.buf.writeBytes s.dstOff (authFrame bs (authTag k bs)) }.complete .ok s.latch.dst
          (u32 (s.srcLen + 52))) := by
  refine (checked_next h).imp id fun ⟨hn, h⟩ => ⟨hn, ?_⟩
  obtain ⟨bs, hb, h⟩ := withInput_next h
  obtain ⟨k, hk, h⟩ := withKey_next h
  exact ⟨bs, k, hb, hk, (finish_next ..).1 h⟩

/-- UNPACK_AUTH (R153). -/
theorem execUnpackAuth_next (h : exec .unpackAuth s = .next t) :
    (∃ c, commonCheck .unpackAuth s = some c ∧ t = s.complete c 0 0) ∨
    (commonCheck .unpackAuth s = none ∧ ∃ bs, s.buf.readBytes s.srcOff s.srcLen = some bs ∧
      ((∃ c ∈ [Code.formatError, .lengthMismatch, .tagLengthMismatch], t = s.complete c 0 0) ∨
       ∃ payload k code, payload.length + 12 ≤ s.srcLen ∧ s.key.readBytes 0 s.keyCount = some k ∧
        code ∈ [Code.ok, .authenticationFailed] ∧
        t = { s with digest := hmacSha1 k payload }.complete code (s.latch.src + 8) (u32 payload.length))) := by
  refine (checked_next h).imp id fun ⟨hn, h⟩ => ⟨hn, ?_⟩
  obtain ⟨bs, hb, h⟩ := withInput_next h
  refine ⟨bs, hb, ?_⟩
  have hl := Memory.readBytes_length hb
  unfold unpackAuthInner at h
  simp only at h
  split_ifs at h with h1 h2 h3 h4 h5
  · exact .inl ⟨_, by simp, (raise_next _).1 h⟩
  · exact .inl ⟨_, by simp, (raise_next _).1 h⟩
  · exact .inl ⟨_, by simp, (raise_next _).1 h⟩
  · exact .inl ⟨_, by simp, (raise_next _).1 h⟩
  · exact .inl ⟨_, by simp, (raise_next _).1 h⟩
  · right
    unfold unpackAuthTag at h
    obtain ⟨k, hk, h⟩ := withKey_next h
    simp only [List.length_drop] at h3 h4
    simp only at h
    split_ifs at h
    · refine ⟨_, k, .ok, ?_, hk, by simp, (finish_next ..).1 h⟩
      rw [slice_length, List.length_drop]
      omega
    · refine ⟨_, k, .authenticationFailed, ?_, hk, by simp, (raise_next _).1 h⟩
      rw [slice_length, List.length_drop]
      omega

/-- The output bytes of PACK_CSUM number the payload's plus 12 (R82). -/
@[simp] theorem csumBody_length (payload : List Byte) (ts : Word) :
    (csumBody payload ts).length = payload.length + 12 := by
  simp [csumBody]
  omega

/-- The output bytes of PACK_AUTH number the payload's plus 52 (R83). -/
@[simp] theorem authFrame_length (k payload : List Byte) :
    (authFrame payload (authTag k payload)).length = payload.length + 52 := by
  simp [authFrame, authInner, authTag]
  omega

end Sys2Proof.Machine
end

