-- ==== Sys2Proof/Laws/PerInstr.lean ====
section
/-! SUPPORT. Statements made for every command, one lemma per constructor. -/

namespace Sys2Proof.Laws

/-- The command's word is legal (R77) and carries the command's opcode below 24 zero bits (R72). -/
def EncodesLegally.Statement (i : Instr) : Prop :=
  legalWord (encode i) = true ∧ (encode i).extractLsb' 0 8 = i.opcode ∧ (encode i).extractLsb' 8 24 = 0

theorem EncodesLegally.nop : EncodesLegally.Statement .nop := ⟨by decide, by decide, by decide⟩
theorem EncodesLegally.crcInit : EncodesLegally.Statement .crcInit := ⟨by decide, by decide, by decide⟩
theorem EncodesLegally.crcUpdate : EncodesLegally.Statement .crcUpdate := ⟨by decide, by decide, by decide⟩
theorem EncodesLegally.crc32 : EncodesLegally.Statement .crc32 := ⟨by decide, by decide, by decide⟩
theorem EncodesLegally.hmac : EncodesLegally.Statement .hmac := ⟨by decide, by decide, by decide⟩
theorem EncodesLegally.hmacHex : EncodesLegally.Statement .hmacHex := ⟨by decide, by decide, by decide⟩
theorem EncodesLegally.packCsum : EncodesLegally.Statement .packCsum := ⟨by decide, by decide, by decide⟩
theorem EncodesLegally.unpackCsum : EncodesLegally.Statement .unpackCsum := ⟨by decide, by decide, by decide⟩
theorem EncodesLegally.packAuth : EncodesLegally.Statement .packAuth := ⟨by decide, by decide, by decide⟩
theorem EncodesLegally.unpackAuth : EncodesLegally.Statement .unpackAuth := ⟨by decide, by decide, by decide⟩

end Sys2Proof.Laws
end

