-- ==== Sys2Proof/Machine/HostOps.lean ====
section
/-! DEFINITION. Host programs as events (00_scope.md R10, 30_encoding.md R86 to R89), offsets relative to BASE. -/

namespace Sys2Proof.Machine

/-- `W off, data` (R10). -/
def hostW (p : Params) (off : Nat) (data : Word) : Event := .write (p.base + off) 32 data

/-- `R off` (R10). -/
def hostR (p : Params) (off : Nat) : Event := .read (p.base + off) 32

/-- `cmd NAME` (R86, R87). -/
def hostCmd (p : Params) (i : Instr) : Event := hostW p 0x00C (encode i)

/-- `WAIT` (R88) as it unfolds when the perform step falls after `polls` reads of STATUS: those reads see BUSY = 1, the
next one sees BUSY = 0. -/
def hostWait (p : Params) (polls : Nat) : List Event :=
  List.replicate polls (hostR p 0x008) ++ [.engineTurn, hostR p 0x008]

/-- The words of LOADBUF and LOADKEY: `b` padded with zeros to a multiple of 4 (R88). -/
def paddedWords : List Byte → List Word
  | [] => []
  | [b0] => [word4 b0 0 0 0]
  | [b0, b1] => [word4 b0 b1 0 0]
  | [b0, b1, b2] => [word4 b0 b1 b2 0]
  | b0 :: b1 :: b2 :: b3 :: rest => word4 b0 b1 b2 b3 :: paddedWords rest

/-- Writes of consecutive words from an offset on. -/
def hostWords (p : Params) (off : Nat) : List Word → List Event
  | [] => []
  | w :: ws => hostW p off w :: hostWords p (off + 4) ws

/-- `LOADBUF off, b` (R88). -/
def hostLoadBuf (p : Params) (off : Nat) (b : List Byte) : List Event :=
  hostWords p (0x1000 + off) (paddedWords b)

/-- `LOADKEY b` (R88). -/
def hostLoadKey (p : Params) (b : List Byte) : List Event :=
  hostWords p 0x100 (paddedWords b) ++ [hostW p 0x020 (u32 b.length)]

/-- `RUN NAME, s, n, d` (R88), its WAIT with `polls` reads before the perform step. -/
def hostRun (p : Params) (i : Instr) (s n d : Word) (polls : Nat) : List Event :=
  [hostW p 0x010 s, hostW p 0x014 n, hostW p 0x018 d, hostCmd p i] ++ hostWait p polls

/-- `CLRDONE` (R88). -/
def hostClrDone (p : Params) : Event := hostW p 0x008 0x00000002

/-- `LOCKKEY` (R88), with the current IE and HASH_SEL of `s`. -/
def hostLockKey (s : State) : Event :=
  hostW s.params 0x004 (s.ctrlWord ||| 0x00000002)

/-- `pack_checksum(b)` of R89 at time `t`, its input at `s` and its output at `d`. -/
def hostPackChecksum (p : Params) (s d t : Word) (b : List Byte) (polls : Nat) : List Event :=
  hostLoadBuf p s.toNat b ++ [hostW p 0x01C t] ++ hostRun p .packCsum s (u32 b.length) d polls

/-- `unpack_checksum(f)` of R89 at time `t`. -/
def hostUnpackChecksum (p : Params) (s t : Word) (f : List Byte) (polls : Nat) : List Event :=
  hostLoadBuf p s.toNat f ++ [hostW p 0x01C t] ++ hostRun p .unpackCsum s (u32 f.length) 0 polls

/-- `pack_auth(b)` of R89 under the secret `key`. -/
def hostPackAuth (p : Params) (key : List Byte) (s d : Word) (b : List Byte) (polls : Nat) : List Event :=
  hostLoadKey p key ++ hostLoadBuf p s.toNat b ++ hostRun p .packAuth s (u32 b.length) d polls

/-- `unpack_auth(f)` of R89 under the secret `key`. -/
def hostUnpackAuth (p : Params) (key : List Byte) (s : Word) (f : List Byte) (polls : Nat) : List Event :=
  hostLoadKey p key ++ hostLoadBuf p s.toNat f ++ hostRun p .unpackAuth s (u32 f.length) 0 polls

end Sys2Proof.Machine
end

