-- ==== Sys2Proof/Tests/Slice0.lean ====
section
/-! SUPPORT. Small tests: what WellFormed and the decoder refuse, each command on a vector of spec/95_test_vectors.md, and
for each statement with hypotheses a state that meets them. -/

namespace Sys2Proof.Tests

open Sys2Proof.Machine

/-! ## Helpers -/

/-- The state right after the accept of `w` with these operands, BUF and KEY, all else as after reset. -/
def inFlight (w src len dst now keyLen : Word) (buf key : Memory) : State :=
  { State.reset with
    src := src, len := len, dst := dst, now := now, keyLen := keyLen, buf := buf, key := key }.accept w

/-- The state a step reaches. -/
def after : Result → State
  | .next s => s
  | _ => State.reset

/-- The step reached a next state. -/
def isNext : Result → Bool
  | .next _ => true
  | _ => false

theorem eq_next_after {r : Result} (h : isNext r = true) : r = .next (after r) := by
  cases r with
  | next s => rfl
  | fault f => cases h
  | refused f => cases h

def hello : List Byte := [0x68, 0x65, 0x6C, 0x6C, 0x6F]

/-- "secret". -/
def secret : List Byte := [0x73, 0x65, 0x63, 0x72, 0x65, 0x74]

/-- BUF or KEY with these bytes written from an offset on. -/
def memAt (off : Nat) (b : List Byte) : Memory := Memory.writeBytes [] off b

/-- The body F of 95_test_vectors.md section 2.4: "hello" packed at 1600000000. -/
def frameF : List Byte :=
  [0x00, 0x00, 0x00, 0x05, 0x68, 0x65, 0x6C, 0x6C, 0x6F, 0x5F, 0x5E, 0x10, 0x00, 0x9C, 0xA2, 0xB6, 0xA8]

/-- The frame A of 95_test_vectors.md section 2.5: "hello" packed under "secret". -/
def frameA : List Byte :=
  [0x00, 0x00, 0x00, 0x35, 0x00, 0x00, 0x00, 0x05, 0x68, 0x65, 0x6C, 0x6C, 0x6F, 0x00, 0x00, 0x00, 0x28,
   0x35, 0x31, 0x31, 0x32, 0x30, 0x35, 0x35, 0x63, 0x30, 0x35, 0x66, 0x39, 0x34, 0x34, 0x66, 0x38, 0x35,
   0x37, 0x35, 0x35, 0x65, 0x66, 0x63, 0x35, 0x63, 0x64, 0x38, 0x39, 0x37, 0x30, 0x65, 0x31, 0x39, 0x34,
   0x65, 0x39, 0x66, 0x34, 0x35, 0x62]

/-! ## WellFormed refuses each ill-formed term -/

theorem test_word_with_rsv_refused : legalWord 0x00000100 = false ∧ legalWord 0x80000003 = false := by decide
theorem test_word_reserved_opcode_refused :
    legalWord 0x04 = false ∧ legalWord 0x12 = false ∧ legalWord 0x32 = false ∧ legalWord 0xFF = false := by decide
theorem test_access_width_refused : accessOk 8 0x010 = false ∧ accessOk 16 0x010 = false := by decide
theorem test_access_misaligned_refused : accessOk 32 0x012 = false := by decide
theorem test_params_default_ok : Params.default.wf = true := by decide
theorem test_params_bufSize_refused :
    Params.wf { Params.default with bufSize := 66 } = false ∧ Params.wf { Params.default with bufSize := 60 } = false ∧
    Params.wf { Params.default with bufSize := 0xF004 } = false := by decide
theorem test_params_keySize_refused :
    Params.wf { Params.default with keySize := 6 } = false ∧ Params.wf { Params.default with keySize := 0 } = false ∧
    Params.wf { Params.default with keySize := 0xF04 } = false := by decide
theorem test_params_base_refused : Params.wf { Params.default with base := 0x8000 } = false := by decide

/-! ## Decoding: each word written out from R72 and R76, RSV (24 bits) then OPCODE (8 bits) -/

theorem test_decode_nop : decodeWord 0b00000000000000000000000000000000 = .ok .nop := by decide
theorem test_decode_crcInit : decodeWord 0b00000000000000000000000000000001 = .ok .crcInit := by decide
theorem test_decode_crcUpdate : decodeWord 0b00000000000000000000000000000010 = .ok .crcUpdate := by decide
theorem test_decode_crc32 : decodeWord 0b00000000000000000000000000000011 = .ok .crc32 := by decide
theorem test_decode_hmac : decodeWord 0b00000000000000000000000000010000 = .ok .hmac := by decide
theorem test_decode_hmacHex : decodeWord 0b00000000000000000000000000010001 = .ok .hmacHex := by decide
theorem test_decode_packCsum : decodeWord 0b00000000000000000000000000100000 = .ok .packCsum := by decide
theorem test_decode_unpackCsum : decodeWord 0b00000000000000000000000000100001 = .ok .unpackCsum := by decide
theorem test_decode_packAuth : decodeWord 0b00000000000000000000000000110000 = .ok .packAuth := by decide
theorem test_decode_unpackAuth : decodeWord 0b00000000000000000000000000110001 = .ok .unpackAuth := by decide
theorem test_decode_refusals :
    decodeWord 0x00000100 = .error .reservedBits ∧ decodeWord 0x00000004 = .error .reservedOpcode := by decide
theorem test_decodeTableWord : decodeTableWord 32 0x31 = some .unpackAuth ∧ decodeTableWord 8 0x31 = some .unpackAuth ∧
    decodeTableWord 32 0x131 = none ∧ decodeTableWord 33 0x31 = none := by decide

/-! ## The functions of the general-knowledge rules, on their vectors (SH2, HM5 to HM9) -/

theorem test_sha1_abc :
    sha1 [0x61, 0x62, 0x63] =
      { h0 := 0xA9993E36, h1 := 0x4706816A, h2 := 0xBA3E2571, h3 := 0x7850C26C, h4 := 0x9CD0D89D } := by
  decide +kernel
theorem test_hmac_long_key :
    (hmacSha1 (List.replicate 65 0x6B) [0x78]).h0 = 0x7209ACA7 ∧
    (hmacSha1 (List.replicate 64 0x6B) [0x78]).h0 = 0x2C31EADF := by
  decide +kernel

/-! ## Each command on vectors of 95_test_vectors.md -/

/-- LC1. -/
theorem test_nop_ignores_operands :
    (after (exec .nop (inFlight 0x00 0 0xFFFFFFFF 0 0 0 [] []))).statusWord = 0x00000002 := by decide
/-- CR14. -/
theorem test_crcInit :
    (after (exec .crcInit { inFlight 0x01 0 0 0 0 0 [] [] with crcState := 5 })).crcState = 0xFFFFFFFF := by decide
/-- CR11: the update goes on from the state the host wrote. -/
theorem test_crcUpdate_host_state :
    (after (exec .crcUpdate { inFlight 0x02 0 1 0 0 0 (memAt 0 [0x61]) [] with crcState := 0x12345678 })).crcState =
      0x64799C96 := by decide
/-- LC15: an input range past the end does not wrap. -/
theorem test_crcUpdate_range :
    (after (exec .crcUpdate (inFlight 0x02 0xFFFFFFFF 2 0 0 0 [] []))).code = .rangeError := by decide
/-- CR13: the prior running state is ignored. -/
theorem test_crc32_ignores_state :
    (after (exec .crc32 { inFlight 0x03 0 1 0 0 0 (memAt 0 [0x61]) [] with crcState := 0 })).crcState =
      0x174841BC := by decide
/-- LC13 and LC14: an empty range at the end of BUF passes, one past it does not. -/
theorem test_crc32_empty_range_at_end :
    (after (exec .crc32 (inFlight 0x03 4096 0 0 0 0 [] []))).code = .ok ∧
    (after (exec .crc32 (inFlight 0x03 4097 0 0 0 0 [] []))).code = .rangeError := by decide
/-- HM11. -/
theorem test_hmac_hello :
    (after (exec .hmac (inFlight 0x10 0 5 0 0 6 (memAt 0 hello) (memAt 0 secret)))).digest =
      { h0 := 0x5112055C, h1 := 0x05F944F8, h2 := 0x5755EFC5, h3 := 0xCD8970E1, h4 := 0x94E9F45B } := by
  decide +kernel
/-- LC9: the key length is checked before the input range. -/
theorem test_hmac_key_range :
    (after (exec .hmac (inFlight 0x10 4095 2 0 0 257 [] []))).code = .rangeError := by decide
/-- HM12: the first word of the tag text is "5112". -/
theorem test_hmacHex_text :
    ((after (exec .hmacHex (inFlight 0x11 0 5 0x100 0 6 (memAt 0 hello) (memAt 0 secret)))).busRead 0x1100 32).resp =
      .data 0x35313132 := by decide +kernel
/-- LC30: an empty input never overlaps. -/
theorem test_hmacHex_empty :
    (after (exec .hmacHex (inFlight 0x11 0 0 0 0 0 [] []))).digest.h0 = 0xFBDB1D1B := by decide +kernel
/-- The body F of section 2.4. -/
theorem test_packCsum_body :
    (after (exec .packCsum (inFlight 0x20 0 5 0x20 1600000000 0 (memAt 0 hello) []))).buf.readBytes 0x20 17 =
      some frameF := by decide +kernel
/-- LC27 and LC28: adjacent ranges do not overlap, one shared byte does. -/
theorem test_packCsum_overlap :
    (after (exec .packCsum (inFlight 0x20 0x20 5 0x25 0 0 (memAt 0x20 hello) []))).code = .ok ∧
    (after (exec .packCsum (inFlight 0x20 0x20 5 0x24 0 0 (memAt 0x20 hello) []))).code = .overlapError := by
  decide +kernel
/-- CS3 and CS4: 60 seconds old is fresh, 61 is expired. -/
theorem test_unpackCsum_window :
    (after (exec .unpackCsum (inFlight 0x21 0 17 0 1600000060 0 (memAt 0 frameF) []))).code = .ok ∧
    (after (exec .unpackCsum (inFlight 0x21 0 17 0 1600000061 0 (memAt 0 frameF) []))).code = .frameExpired := by
  decide +kernel
/-- CS7: a changed timestamp byte; CRC_STATE and TS are written all the same. -/
theorem test_unpackCsum_tampered :
    let t := after (exec .unpackCsum (inFlight 0x21 0 17 0 1600000000 0 (memAt 0 (frameF.set 9 0x5E)) []))
    t.code = .checksumInvalid ∧ t.crcState = 0x74265D14 ∧ t.ts = 0x5E5E1000 := by
  decide +kernel
/-- The frame A of section 2.5. -/
theorem test_packAuth_frame :
    (after (exec .packAuth (inFlight 0x30 0 5 0x40 0 6 (memAt 0 hello) (memAt 0 secret)))).buf.readBytes 0x40 57 =
      some frameA := by decide +kernel
/-- LC21 and LC22: the last legal destination. -/
theorem test_packAuth_range :
    (after (exec .packAuth (inFlight 0x30 0 5 4039 0 6 (memAt 0 hello) (memAt 0 secret)))).outOff = 0xFC7 ∧
    (after (exec .packAuth (inFlight 0x30 0 5 4040 0 6 (memAt 0 hello) (memAt 0 secret)))).code = .rangeError := by
  decide +kernel
/-- The example of R153: OK with the payload in place; with key "secreu", AuthenticationFailed. -/
theorem test_unpackAuth_key :
    let t := after (exec .unpackAuth (inFlight 0x31 0 57 0 0 6 (memAt 0 frameA) (memAt 0 secret)))
    let u := after (exec .unpackAuth (inFlight 0x31 0 57 0 0 6 (memAt 0 frameA) (memAt 0 (secret.set 5 0x75))))
    t.code = .ok ∧ t.outOff = 8 ∧ t.outLen = 5 ∧ u.code = .authenticationFailed ∧ u.outLen = 0 := by
  decide +kernel
/-- E2 (AU15): a generic frame is no authenticated frame. -/
theorem test_unpackAuth_generic_frame :
    (after (exec .unpackAuth (inFlight 0x31 0 9 0 0 0 (memAt 0 ([0, 0, 0, 5] ++ hello)) []))).code = .formatError := by
  decide

/-! ## Host accesses and programs -/

/-- The encoding of P1 of 95_test_vectors.md, its WAIT without an early poll. -/
theorem test_hostOps_p1 :
    hostLoadBuf Params.default 0 [0x31, 0x32, 0x33, 0x34, 0x35, 0x36, 0x37, 0x38, 0x39] ++
      hostRun Params.default .crc32 0 9 0 0 =
    [.write 0x1000 32 0x31323334, .write 0x1004 32 0x35363738, .write 0x1008 32 0x39000000, .write 0x010 32 0,
     .write 0x014 32 9, .write 0x018 32 0, .write 0x00C 32 3, .engineTurn, .read 0x008 32] := by decide
/-- LC38. -/
theorem test_window_lanes :
    ((State.reset.busWrite 0x1000 32 0x11223344).busRead 0x1000 32).resp = .data 0x11223344 ∧
    (State.reset.busWrite 0x1000 32 0x11223344).buf.read 1 = some 0x22 := by decide
/-- LC36 in part: KEYLOCK and KEYLEN outlive a soft reset. -/
theorem test_soft_reset :
    let t := { State.reset with keyLock := true, keyLen := 6, done := true }.busWrite 0x004 32 0x80000000
    t.ctrlWord = 0x00000002 ∧ t.keyLen = 6 ∧ t.statusWord = 0 := by decide

/-! ## Witnesses: for each statement with hypotheses, a state and operands that meet them -/

/-- "hello" in BUF, "secret" in KEY, `w` in flight on the five bytes. -/
def onHello (w dst now : Word) : State := inFlight w 0 5 dst now 6 (memAt 0 hello) (memAt 0 secret)

theorem witness_IllegalWordIsAcceptedAndFails :
    State.reset.busy = false ∧ (0x00000100 : Word).extractLsb' 8 24 ≠ 0 ∧
    (0x00000004 : Word).extractLsb' 0 8 ∉
      ([0x00, 0x01, 0x02, 0x03, 0x10, 0x11, 0x20, 0x21, 0x30, 0x31] : List Byte) ∧
    (0x00000032 : Word).extractLsb' 0 8 ∉
      ([0x00, 0x01, 0x02, 0x03, 0x10, 0x11, 0x20, 0x21, 0x30, 0x31] : List Byte) := by decide
theorem witness_StepRunsDecodedCommand :
    (onHello 3 0 0).busy = true ∧ decodeWord (onHello 3 0 0).commandWord = .ok .crc32 ∧ (onHello 3 0 0).inputs = [] ∧
    { onHello 3 0 0 with inputs := [.engineTurn] }.inputs = .engineTurn :: [] := by decide
theorem witness_IdleEngineDoesNothing :
    State.reset.busy = false ∧ State.reset.inputs = [] ∧
    { State.reset with inputs := [.engineTurn] }.inputs = .engineTurn :: [] := by decide
theorem witness_StepPerformsHostAccess :
    let s := { State.reset with params := { Params.default with base := 0x10000 } }
    (0xFFFF < 0x10000 ∧ s.resetLine = false ∧
      { s with inputs := [.write (s.params.base + 0xFFFF) 32 7] }.inputs = .write (s.params.base + 0xFFFF) 32 7 :: [] ∧
      { s with inputs := [.read (s.params.base + 0) 32] }.inputs = .read (s.params.base + 0) 32 :: []) ∧
    (0xFFFF < s.params.base ∧ { s with inputs := [.read 0xFFFF 32] }.inputs = .read 0xFFFF 32 :: []) ∧
    (s.params.base + 0x10000 ≤ 0x20000 ∧
      { s with inputs := [.write 0x20000 32 7] }.inputs = .write 0x20000 32 7 :: []) := by decide
theorem witness_FetchWordRunsOnTheNextStep :
    decodeTableWord 32 0x21 = some .unpackCsum ∧ isNext (step (State.reset.withFetchWord 32 0x21)) = true := by decide
theorem witness_StepStopsOnlyOnUnwrittenBytes :
    step (inFlight 3 0 1 0 0 0 [] []) = .fault .unwrittenBuf ∧
    step (inFlight 0x10 0 0 0 0 1 [] []) = .fault .unwrittenKey := ⟨rfl, rfl⟩
theorem witness_UnwrittenInputFaults :
    Instr.unpackAuth ∈
      ([.crcUpdate, .crc32, .hmac, .hmacHex, .packCsum, .unpackCsum, .packAuth, .unpackAuth] : List Instr) ∧
    ChecksPass .unpackAuth (inFlight 0x31 0 6 0 0 0 (memAt 0 hello) []) ∧
    (inFlight 0x31 0 6 0 0 0 (memAt 0 hello) []).buf.read 5 = none := by decide
theorem witness_UnwrittenInputFaults_key :
    let s := inFlight 0x10 0 5 0 0 7 (memAt 0 hello) (memAt 0 secret)
    ChecksPass .hmac s ∧ InputIs s hello ∧ 6 < s.latch.keyLen.toNat ∧ s.key.read 6 = none ∧
    Instr.hmac ∈ ([.hmac, .hmacHex, .packAuth] : List Instr) := by decide
theorem witness_UnwrittenInputFaults_unpackAuth :
    let s := inFlight 0x31 0 57 0 0 7 (memAt 0 frameA) (memAt 0 secret)
    ChecksPass .unpackAuth s ∧ InputIs s frameA ∧ 6 < s.latch.keyLen.toNat ∧ s.key.read 6 = none ∧
    dec32 frameA = some 53 ∧ (53 : Word).toNat = s.latch.len.toNat - 4 ∧ dec32 (frameA.drop 4) = some 5 ∧
    (5 : Word).toNat + 8 ≤ s.latch.len.toNat - 4 ∧ dec32 (frameA.drop (8 + (5 : Word).toNat)) = some 40 ∧
    (40 : Word).toNat = s.latch.len.toNat - 12 - (5 : Word).toNat := by decide
theorem witness_CommandAcceptLatchesOperands : State.reset.busy = false := by decide
theorem witness_CommandWriteWhileBusyIsDropped : (onHello 3 0 0).busy = true := by decide
theorem witness_CommonChecksInOrder_illegal :
    (onHello 0x100 0 0).busy = true ∧ decodeWord (onHello 0x100 0 0).commandWord = .error .reservedBits := by decide
theorem witness_CommonChecksInOrder_hash :
    Instr.hmac ∈ ([.hmac, .hmacHex, .packAuth, .unpackAuth] : List Instr) ∧
    ({ State.reset with hashSel := 1 }.accept 0x10).latch.hash ≠ 0 := by decide
theorem witness_CommonChecksInOrder_key :
    (inFlight 0x10 0 0 0 0 257 [] []).latch.hash = 0 ∧
    (inFlight 0x10 0 0 0 0 257 [] []).params.keySize < (inFlight 0x10 0 0 0 0 257 [] []).latch.keyLen.toNat := by decide
theorem witness_CommonChecksInOrder_source :
    let s := inFlight 0x20 4095 2 0 0 0 [] []
    Instr.packCsum ∉ ([.hmac, .hmacHex, .packAuth, .unpackAuth] : List Instr) ∧
    s.params.bufSize < s.latch.src.toNat + s.latch.len.toNat := by decide
theorem witness_CommonChecksInOrder_destination :
    let s := onHello 0x20 4080 0
    s.latch.src.toNat + s.latch.len.toNat ≤ s.params.bufSize ∧
    s.params.bufSize < s.latch.dst.toNat + (s.latch.len.toNat + 12) := by decide
theorem witness_CommonChecksInOrder_overlap :
    let s := inFlight 0x20 0x20 5 0x24 0 0 [] []
    s.latch.src.toNat + s.latch.len.toNat ≤ s.params.bufSize ∧
    s.latch.dst.toNat + (s.latch.len.toNat + 12) ≤ s.params.bufSize ∧ 0 < s.latch.len.toNat ∧
    s.latch.src.toNat < s.latch.dst.toNat + (s.latch.len.toNat + 12) ∧
    s.latch.dst.toNat < s.latch.src.toNat + s.latch.len.toNat := by decide
theorem witness_EveryPerformCompletes :
    (∃ t, exec .packCsum (onHello 0x20 0x20 0) = .next t) ∧
    (onHello 0x100 0 0).busy = true ∧ ∃ t, perform (onHello 0x100 0 0) = .next t :=
  ⟨⟨_, eq_next_after (by decide +kernel)⟩, by decide, _, eq_next_after (by decide)⟩
theorem witness_CommandsWriteOnlyWhatTheyName :
    (∃ t, exec .nop (onHello 0x00 0 0) = .next t) ∧
    (∃ t, exec .packCsum (onHello 0x20 1 0) = .next t ∧ t.code ≠ .ok) ∧
    (∃ t, exec .packCsum (onHello 0x20 0x20 0) = .next t ∧ t.code = .ok) :=
  ⟨⟨_, eq_next_after (by decide)⟩, ⟨_, eq_next_after (by decide), by decide⟩,
   ⟨_, eq_next_after (by decide +kernel), by decide +kernel⟩⟩
theorem witness_CodesEachCommandReports : ∃ t, exec .unpackAuth (onHello 0x31 0 0) = .next t :=
  ⟨_, eq_next_after (by decide +kernel)⟩
theorem witness_CrcUpdateCompletes :
    ChecksPass .crcUpdate (onHello 2 0 0) ∧ InputIs (onHello 2 0 0) hello := by decide
theorem witness_Crc32Completes : ChecksPass .crc32 (onHello 3 0 0) ∧ InputIs (onHello 3 0 0) hello := by decide
/-- CR10 with its two parts "hel" and "lo". -/
theorem witness_CrcUpdatesCompose :
    let s := inFlight 1 0 3 0 0 0 (memAt 0 hello) []
    let s1 := after (exec .crcInit s)
    let s2 := after (exec .crcUpdate s1)
    let l : Latch := { s.latch with src := 3, len := 2 }
    exec .crcInit s = .next s1 ∧ ChecksPass .crcUpdate s1 ∧ InputIs s1 (hello.take 3) ∧
    exec .crcUpdate s1 = .next s2 ∧ ChecksPass .crcUpdate { s2 with latch := l } ∧
    InputIs { s2 with latch := l } (hello.drop 3) ∧
    exec .crcUpdate { s2 with latch := l } = .next (after (exec .crcUpdate { s2 with latch := l })) :=
  ⟨eq_next_after (by decide), by decide, by decide, eq_next_after (by decide), by decide, by decide,
   eq_next_after (by decide +kernel)⟩
theorem witness_CrcDetectsOneChangedByte : (0x00 : Byte) ≠ 0x01 := by decide
theorem witness_Sha1PaddingIsLeast :
    (List.replicate 55 (0x61 : Byte)).length < 2 ^ 61 ∧ (List.replicate 56 (0x61 : Byte)).length < 2 ^ 61 ∧
    (List.replicate 64 (0x61 : Byte)).length = 64 := by decide
theorem witness_HmacHashesLongKeys : 64 < (List.replicate 65 (0x6B : Byte)).length := by decide
theorem witness_HexTextDigits : 0 < [(0xA9 : Byte)].length := by decide
theorem witness_HmacCompletes :
    ChecksPass .hmac (onHello 0x10 0 0) ∧ InputIs (onHello 0x10 0 0) hello ∧ KeyIs (onHello 0x10 0 0) secret := by decide
theorem witness_HmacHexCompletes :
    ChecksPass .hmacHex (onHello 0x11 4056 0) ∧ InputIs (onHello 0x11 4056 0) hello ∧
    KeyIs (onHello 0x11 4056 0) secret := by decide
theorem witness_PackCsumCompletes :
    ChecksPass .packCsum (onHello 0x20 4079 0) ∧ InputIs (onHello 0x20 4079 0) hello := by decide

/-- The body F in flight under UNPACK_CSUM. -/
def onF (now : Word) : State := inFlight 0x21 0 17 0 now 0 (memAt 0 frameF) []

theorem witness_UnpackCsumVerdict :
    ChecksPass .unpackCsum (onF 1600000061) ∧
    InputIs (onF 1600000061)
      (be32 (BitVec.ofNat 32 hello.length) ++ hello ++ be32 0x5F5E1000 ++ be32 0x9CA2B6A8) := by decide
theorem witness_UnpackCsumFormatError :
    (ChecksPass .unpackCsum (inFlight 0x21 0 3 0 0 0 (memAt 0 hello) []) ∧
      InputIs (inFlight 0x21 0 3 0 0 0 (memAt 0 hello) []) (hello.take 3)) ∧
    (ChecksPass .unpackCsum (inFlight 0x21 0 4 0 0 0 (memAt 0 (be32 0xFFFFFFF8)) []) ∧
      InputIs (inFlight 0x21 0 4 0 0 0 (memAt 0 (be32 0xFFFFFFF8)) []) (be32 0xFFFFFFF8) ∧
      dec32 (be32 0xFFFFFFF8) = some 0xFFFFFFF8) := by decide
/-- CS5: the first payload byte changed. -/
theorem witness_CsumTamperIsDetected :
    let s := inFlight 0x21 0 17 0 0 0 (memAt 0 (frameF.set 4 0x69)) []
    be32 0x5F5E1000 ++ hello = be32 0x5F5E1000 ++ (0x68 : Byte) :: hello.drop 1 ∧
    be32 0x5F5E1000 ++ hello.set 0 0x69 = be32 0x5F5E1000 ++ (0x69 : Byte) :: hello.drop 1 ∧
    ChecksPass .unpackCsum s ∧
    InputIs s (be32 (BitVec.ofNat 32 (hello.set 0 0x69).length) ++ hello.set 0 0x69 ++ be32 0x5F5E1000 ++
      be32 (crc32Of (be32 0x5F5E1000 ++ hello))) := by decide +kernel
theorem witness_CsumRoundTrip :
    let s := onHello 0x20 0x20 100
    let t := after (exec .packCsum s)
    let u (now : Word) : State := { t with latch := { t.latch with src := t.outOff, len := t.outLen, now := now } }
    s.params.wf = true ∧ InputIs s hello ∧ exec .packCsum s = .next t ∧ t.code = .ok ∧
    fresh s.latch.now (u 160).latch.now = true ∧ fresh s.latch.now (u 161).latch.now = false :=
  ⟨by decide, by decide, eq_next_after (by decide +kernel), by decide +kernel, by decide +kernel, by decide +kernel⟩
theorem witness_PackAuthCompletes :
    ChecksPass .packAuth (onHello 0x30 4039 0) ∧ InputIs (onHello 0x30 4039 0) hello ∧
    KeyIs (onHello 0x30 4039 0) secret := by decide

/-- These bytes in flight under UNPACK_AUTH with the key "secret". -/
def onAuth (b : List Byte) : State :=
  inFlight 0x31 0 (u32 b.length) 0 0 6 (memAt 0 b) (memAt 0 secret)

theorem witness_UnpackAuthVerdict :
    let tag : List Byte := [0x41]
    let frame := be32 (BitVec.ofNat 32 (hello.length + tag.length + 8)) ++
      (be32 (BitVec.ofNat 32 hello.length) ++ hello ++ be32 (BitVec.ofNat 32 tag.length) ++ tag)
    ChecksPass .unpackAuth (onAuth frame) ∧ KeyIs (onAuth frame) secret ∧ InputIs (onAuth frame) frame := by decide
theorem witness_UnpackAuthVerdict_ok :
    let tag := frameA.drop 17
    let frame := be32 (BitVec.ofNat 32 (hello.length + tag.length + 8)) ++
      (be32 (BitVec.ofNat 32 hello.length) ++ hello ++ be32 (BitVec.ofNat 32 tag.length) ++ tag)
    frame = frameA ∧ ChecksPass .unpackAuth (onAuth frame) ∧ KeyIs (onAuth frame) secret ∧
    InputIs (onAuth frame) frame ∧ tag = tagText (hmacSha1 secret hello) := by decide +kernel
theorem witness_UnpackAuthLengthFailures_short :
    ChecksPass .unpackAuth (onAuth [0, 0, 0]) ∧ InputIs (onAuth [0, 0, 0]) [0, 0, 0] ∧
    (onAuth [0, 0, 0]).latch.len.toNat < 4 := by decide
theorem witness_UnpackAuthLengthFailures_outer :
    ChecksPass .unpackAuth (onAuth [0, 0, 0, 1]) ∧ InputIs (onAuth [0, 0, 0, 1]) [0, 0, 0, 1] ∧
    dec32 [0, 0, 0, 1] = some 1 ∧ (1 : Word).toNat ≠ (onAuth [0, 0, 0, 1]).latch.len.toNat - 4 := by decide
theorem witness_UnpackAuthLengthFailures_inner :
    ChecksPass .unpackAuth (onAuth [0, 0, 0, 0]) ∧ InputIs (onAuth [0, 0, 0, 0]) [0, 0, 0, 0] ∧
    dec32 [0, 0, 0, 0] = some 0 ∧ (0 : Word).toNat = (onAuth [0, 0, 0, 0]).latch.len.toNat - 4 := by decide
theorem witness_UnpackAuthLengthFailures_payload :
    let b := be32 7 ++ be32 0 ++ [0, 0, 0]
    ChecksPass .unpackAuth (onAuth b) ∧ InputIs (onAuth b) b ∧ dec32 b = some 7 ∧
    (7 : Word).toNat = (onAuth b).latch.len.toNat - 4 ∧ dec32 (b.drop 4) = some 0 ∧
    (onAuth b).latch.len.toNat - 4 < (0 : Word).toNat + 8 := by decide
theorem witness_UnpackAuthLengthFailures_tag :
    let b := be32 8 ++ be32 0 ++ be32 1
    ChecksPass .unpackAuth (onAuth b) ∧ InputIs (onAuth b) b ∧ dec32 b = some 8 ∧
    (8 : Word).toNat = (onAuth b).latch.len.toNat - 4 ∧ dec32 (b.drop 4) = some 0 ∧
    (0 : Word).toNat + 8 ≤ (onAuth b).latch.len.toNat - 4 ∧ dec32 (b.drop (8 + (0 : Word).toNat)) = some 1 ∧
    (1 : Word).toNat ≠ (onAuth b).latch.len.toNat - 12 - (0 : Word).toNat := by decide
theorem witness_AuthRoundTrip :
    let s := onHello 0x30 0x40 0
    let t := after (exec .packAuth s)
    s.params.wf = true ∧ InputIs s hello ∧ exec .packAuth s = .next t ∧ t.code = .ok ∧ t.latch.hash = 0 ∧
    t.latch.keyLen = s.latch.keyLen ∧ t.params = s.params ∧ t.key = s.key :=
  ⟨by decide, by decide, eq_next_after (by decide +kernel), by decide +kernel, by decide +kernel, by decide +kernel,
   by decide +kernel, by decide +kernel⟩
theorem witness_MisfitAccessIsRejected : 16 ≠ 32 ∧ 0x012 % 4 ≠ 0 := by decide
theorem witness_ReservedOffsetsReadZero :
    ∀ off ∈ [0x038, 0x054, 0x0FC, 0x200, 0x2000, 0xFFFC], off % 4 = 0 ∧
      off ∉ [0x000, 0x004, 0x008, 0x00C, 0x010, 0x014, 0x018, 0x01C, 0x020, 0x024, 0x028, 0x02C, 0x030, 0x034,
        0x040, 0x044, 0x048, 0x04C, 0x050] ∧
      ¬ (0x100 ≤ off ∧ off < 0x100 + State.reset.params.keySize) ∧
      ¬ (0x1000 ≤ off ∧ off < 0x1000 + State.reset.params.bufSize) := by decide
theorem witness_IdleRegisterReads : State.reset.busy = false := by decide
theorem witness_BusyReadsAreUnspecified :
    (onHello 3 0 0).params.wf = true ∧ (onHello 3 0 0).busy = true ∧ 4 * 1023 + 3 < (onHello 3 0 0).params.bufSize := by
  decide
theorem witness_BufWindowLanes :
    State.reset.params.wf = true ∧ 4 * 1023 + 3 < State.reset.params.bufSize ∧ State.reset.busy = false ∧
    { State.reset with buf := memAt 4092 [1, 2, 3, 4] }.buf.readBytes (4 * 1023) 4 = some [1, 2, 3, 4] ∧
    { State.reset with buf := memAt 4092 [1, 2, 3] }.buf.read (4 * 1023 + 3) = none := by decide
theorem witness_BufWriteWhileBusyIsDropped :
    (onHello 3 0 0).params.wf = true ∧ 4 * 0 + 3 < (onHello 3 0 0).params.bufSize ∧ (onHello 3 0 0).busy = true := by
  decide
theorem witness_KeyWindow :
    State.reset.params.wf = true ∧ 4 * 63 + 3 < State.reset.params.keySize ∧ State.reset.keyLock = false ∧
    State.reset.busy = false ∧ { State.reset with keyLock := true }.keyLock = true ∧ (onHello 3 0 0).busy = true := by
  decide
theorem witness_OperandRegisterWrites :
    { State.reset with keyLock := true }.keyLock = true ∧ State.reset.keyLock = false ∧ (onHello 3 0 0).busy = true ∧
    State.reset.busy = false := by decide
theorem witness_CtrlFields : (0x7FFFFFFF : Word).getLsbD 31 = false := by decide
theorem witness_IrqIsALevel :
    (0x00000002 : Word).getLsbD 1 = true ∧ (0x00000002 : Word).getLsbD 31 = false ∧
    (0x00000002 : Word).getLsbD 0 = false := by decide
theorem witness_BigEndianInverse :
    4 ≤ [(0 : Byte), 0, 0, 5].length ∧ [(0 : Byte), 0, 0].length < 4 := by decide
theorem witness_HardwareResetValues :
    { onHello 3 0 0 with inputs := [.assertReset] }.inputs = .assertReset :: [] := by decide
theorem witness_AccessUnderResetHasNoEffect :
    let s := { State.reset with resetLine := true, inputs := [.write 0xFFFF 8 7] }
    s.resetLine = true ∧ s.params.base ≤ 0xFFFF ∧ 0xFFFF < s.params.base + 0x10000 ∧
    s.inputs = .write 0xFFFF 8 7 :: [] ∧ { s with inputs := [.read 0 32] }.inputs = .read 0 32 :: [] ∧
    { s with inputs := [.releaseReset] }.inputs = .releaseReset :: [] := by decide
theorem witness_SoftResetWhileIdle : (0x80000001 : Word).getLsbD 31 = true ∧ State.reset.busy = false := by decide
theorem witness_SoftResetAbandonsCommand :
    (0x80000000 : Word).getLsbD 31 = true ∧ (onHello 0x20 0x20 0).busy = true := by decide
theorem witness_InvariantIsKept : State.reset.Inv ∧ step State.reset = .next State.reset := by
  refine ⟨?_, rfl⟩
  constructor <;> decide
theorem witness_BusyRisesOnlyByAccept :
    let s := { State.reset with inputs := [.write 0x00C 32 0] }
    s.busy = false ∧ step s = .next (after (step s)) ∧ (after (step s)).busy = true :=
  ⟨by decide, rfl, by decide⟩
theorem witness_KeyLockHoldsUntilHardwareReset :
    let s := { State.reset with keyLock := true, inputs := [.write 0x020 32 0] }
    s.keyLock = true ∧ Event.assertReset ∉ s.inputs ∧ Sys2Proof.core.run 1 s = .next (after (step s)) :=
  ⟨by decide, by decide, rfl⟩
theorem witness_KeyIsNotReadableOverTheBus :
    { State.reset with inputs := [.read 0x100 32] }.inputs = .read 0x100 32 :: [] ∧
    Event.read 0x100 32 ≠ .engineTurn := by decide
theorem witness_CommandsArePure :
    let s := onHello 3 0 0
    let u := { s with buf := s.buf.write 5 7, key := [], crcState := 0 }
    s.params.wf = true ∧ u.params = s.params ∧ u.latch = s.latch ∧ Instr.crc32 ∉ ([.nop, .crcInit] : List Instr) ∧
    (∀ a, s.latch.src.toNat ≤ a → a < s.latch.src.toNat + s.latch.len.toNat → u.buf.read a = s.buf.read a) ∧
    ∃ t, exec .crc32 s = .next t :=
  ⟨by decide, rfl, rfl, by decide,
   fun a _ h => Memory.read_write_ne _ _ (Nat.ne_of_lt (Nat.lt_of_lt_of_eq h (by decide))), _, eq_next_after (by decide)⟩
theorem witness_CommandsArePure_key :
    let s := onHello 0x10 0 0
    Instr.hmac ∈ ([.hmac, .hmacHex, .packAuth, .unpackAuth] : List Instr) ∧ ∃ t, exec .hmac s = .next t :=
  ⟨by decide, _, eq_next_after (by decide +kernel)⟩

end Sys2Proof.Tests
end

section
/-! The IRQ output under host writes to CTRL and STATUS (10_state.md R20, R26, R42). -/

namespace Sys2Proof.Machine

theorem irq_eq_true_iff (s : State) : s.irq = true ↔ s.ie = true ∧ s.done = true := by
  rw [State.irq, Bool.and_eq_true]

theorem irqOn_irqLine (s : State) : s.irqOn s.params.irqLine = s.irq := by
  rw [State.irqOn, beq_self_eq_true, Bool.true_and]

/-- IRQ is a function of the registers, not of the bus response. -/
theorem irq_with_resp (s : State) (r : Response) : { s with resp := r }.irq = s.irq := rfl

/-- DONE is write-1-to-clear (R26), and IRQ falls with it. -/
theorem irq_writeStatus (s : State) (d : Word) : (s.writeStatus d).irq = (s.irq && !d.getLsbD 1) := by
  rw [State.irq, State.irq, State.writeStatus_ie, State.writeStatus_done, Bool.and_assoc]

/-- A CTRL write without SRST replaces IE and leaves DONE pending (R20). -/
theorem irq_writeCtrlFields (s : State) (d : Word) : (s.writeCtrlFields d).irq = (d.getLsbD 0 && s.done) := by
  rw [State.irq, State.writeCtrlFields_ie, State.writeCtrlFields_done]

theorem busWrite_status (s : State) (d : Word) :
    s.busWrite 0x008 32 d = { s.writeStatus d with resp := .written } :=
  busWrite_reg (r := .status) (by decide) (by decide) d

theorem busWrite_ctrl (s : State) (d : Word) :
    s.busWrite 0x004 32 d = { s.writeCtrl d with resp := .written } :=
  busWrite_reg (r := .ctrl) (by decide) (by decide) d

theorem writeCtrl_of_not_srst {d : Word} (s : State) (h : d.getLsbD 31 = false) :
    s.writeCtrl d = s.writeCtrlFields d := by
  rw [State.writeCtrl, h, if_neg Bool.false_ne_true]

/-- Settles O49: IRQ is IE and DONE at every moment, and each of the two writes clears one of them. -/
theorem irqIsALevel : Obligations.IrqIsALevel := by
  intro s d
  refine ⟨?level, ?afterReset, ?doneCleared, ?ieMasked⟩
  case level => rw [irqOn_irqLine, irq_eq_true_iff]
  case afterReset => rfl
  case doneCleared =>
    intro hdone
    rw [busWrite_status, irq_with_resp, irq_writeStatus, hdone, Bool.not_true, Bool.and_false]
  case ieMasked =>
    intro hsrst hie
    rw [busWrite_ctrl, writeCtrl_of_not_srst s hsrst, irq_with_resp]
    exact ⟨by rw [irq_writeCtrlFields, hie, Bool.false_and], State.writeCtrlFields_done s d⟩

end Sys2Proof.Machine
end

section
/-! Where an aligned access of the register space leads: misfit accesses, reserved offsets, the KEY and BUF windows
(20_memory.md R47, R48, R51, R52, R54). -/

namespace Sys2Proof.Machine

theorem accessOk_iff {width off : Nat} : accessOk width off = true ↔ width = 32 ∧ off % 4 = 0 := by
  rw [accessOk, Bool.and_eq_true, beq_iff_eq, beq_iff_eq]

theorem accessOk_eq_false {width off : Nat} (h : width ≠ 32 ∨ off % 4 ≠ 0) : accessOk width off = false := by
  rw [Bool.eq_false_iff, ne_eq, accessOk_iff, not_and_or]
  exact h

theorem busWrite_misfit (s : State) {width off : Nat} (h : accessOk width off = false) (d : Word) :
    s.busWrite off width d = { s with resp := .busError } := by
  rw [State.busWrite, h, if_neg Bool.false_ne_true]

theorem busRead_misfit (s : State) {width off : Nat} (h : accessOk width off = false) :
    s.busRead off width = { s with resp := .busError } := by
  rw [State.busRead, h, if_neg Bool.false_ne_true]

/-- An offset names a register exactly when the register map lists it (R74). -/
theorem regAt_eq_none_iff {off : Nat} : regAt off = none ↔ off ∉ regMap.map Prod.fst := by
  simp only [regAt, Option.map_eq_none_iff, List.find?_eq_none, beq_iff_eq, List.mem_map, not_exists, not_and]

theorem target_reserved {p : Params} {off : Nat} (hreg : regAt off = none)
    (hkey : ¬ (0x100 ≤ off ∧ off < 0x100 + p.keySize)) (hbuf : ¬ (0x1000 ≤ off ∧ off < 0x1000 + p.bufSize)) :
    target p off = .reserved := by
  simp only [target, hreg, Bool.and_eq_true, decide_eq_true_eq, if_neg hkey, if_neg hbuf]

section
variable {s : State} {off k : Nat}

theorem busRead_reserved (hoff : off % 4 = 0) (h : target s.params off = .reserved) :
    s.busRead off 32 = s.answer 0 := by
  rw [State.busRead, if_pos (accessOk_iff.2 ⟨rfl, hoff⟩), h]

theorem busWrite_reserved (hoff : off % 4 = 0) (h : target s.params off = .reserved) (d : Word) :
    s.busWrite off 32 d = { s with resp := .written } := by
  rw [State.busWrite, if_pos (accessOk_iff.2 ⟨rfl, hoff⟩), h]

theorem busRead_keyWord (hoff : off % 4 = 0) (h : target s.params off = .keyWord k) :
    s.busRead off 32 = s.answer 0 := by
  rw [State.busRead, if_pos (accessOk_iff.2 ⟨rfl, hoff⟩), h]

theorem busWrite_keyWord (hoff : off % 4 = 0) (h : target s.params off = .keyWord k) (d : Word) :
    s.busWrite off 32 d = { s.writeKeyWord k d with resp := .written } := by
  rw [State.busWrite, if_pos (accessOk_iff.2 ⟨rfl, hoff⟩), h]

theorem busWrite_bufWord (hoff : off % 4 = 0) (h : target s.params off = .bufWord k) (d : Word) :
    s.busWrite off 32 d = { s.writeBufWord k d with resp := .written } := by
  rw [State.busWrite, if_pos (accessOk_iff.2 ⟨rfl, hoff⟩), h]

end

theorem writeBufWord_of_busy {s : State} (h : s.busy = true) (k : Nat) (d : Word) :
    s.writeBufWord k d = { s with busyWr := true } := by
  rw [State.writeBufWord, if_pos h]

/-- A dropped KEY write raises the flag of each reason that holds (R54). -/
theorem writeKeyWord_of_locked_or_busy {s : State} (h : s.keyLock = true ∨ s.busy = true) (k : Nat) (d : Word) :
    s.writeKeyWord k d = { s with lockWr := s.lockWr || s.keyLock, busyWr := s.busyWr || s.busy } := by
  rw [State.writeKeyWord, if_pos (Bool.or_eq_true_iff.2 h)]

theorem writeKeyWord_of_unlocked_idle {s : State} (hl : s.keyLock = false) (hb : s.busy = false) (k : Nat)
    (d : Word) : s.writeKeyWord k d = { s with key := s.key.writeBytes (4 * k) (be32 d) } := by
  rw [State.writeKeyWord, hl, hb, Bool.or_false, if_neg Bool.false_ne_true]

/-- The big-endian lanes of a stored word (R49). -/
theorem Memory.read_writeBytes_be32 (m : Memory) (off : Nat) (d : Word) :
    (m.writeBytes off (be32 d)).read off = some (d.extractLsb' 24 8) ∧
    (m.writeBytes off (be32 d)).read (off + 1) = some (d.extractLsb' 16 8) ∧
    (m.writeBytes off (be32 d)).read (off + 2) = some (d.extractLsb' 8 8) ∧
    (m.writeBytes off (be32 d)).read (off + 3) = some (d.extractLsb' 0 8) := by
  have lane (i : Nat) (hi : i < (be32 d).length) :
      (m.writeBytes off (be32 d)).read (off + i) = some (be32 d)[i] := Memory.read_writeBytes_inside hi
  exact ⟨lane 0 (by simp), lane 1 (by simp), lane 2 (by simp), lane 3 (by simp)⟩

/-- Settles O38: the fit test comes before the offset is decoded. -/
theorem misfitAccessIsRejected : Obligations.MisfitAccessIsRejected := by
  intro s off width d h
  have hfit := accessOk_eq_false h
  exact ⟨busWrite_misfit s hfit d, busRead_misfit s hfit⟩

/-- Settles O39: an offset in neither the register map nor a window decodes to the reserved target, which is looked at
without BUSY. -/
theorem reservedOffsetsReadZero : Obligations.ReservedOffsetsReadZero := by
  intro s off d hoff hreg hkey hbuf
  have htarget : target s.params off = .reserved := target_reserved (regAt_eq_none_iff.2 hreg) hkey hbuf
  exact ⟨busRead_reserved hoff htarget, busWrite_reserved hoff htarget d⟩

/-- Settles O43. -/
theorem bufWriteWhileBusyIsDropped : Obligations.BufWriteWhileBusyIsDropped := by
  intro s k d hwf hk hbusy
  rw [busWrite_bufWord (by omega) (target_bufWord hwf hk), writeBufWord_of_busy hbusy]

/-- Settles O44: every KEY window offset decodes to its word, which reads 0 and is stored only while unlocked and
idle. -/
theorem keyWindow : Obligations.KeyWindow := by
  intro s k d _ hk
  have hoff : (0x100 + 4 * k) % 4 = 0 := by omega
  have htarget : target s.params (0x100 + 4 * k) = .keyWord k := target_keyWord hk
  refine ⟨busRead_keyWord hoff htarget, ?dropped, ?stored⟩
  case dropped =>
    intro h
    rw [busWrite_keyWord hoff htarget, writeKeyWord_of_locked_or_busy h]
  case stored =>
    intro hlock hbusy
    obtain ⟨h0, h1, h2, h3⟩ := Memory.read_writeBytes_be32 s.key (4 * k) d
    rw [busWrite_keyWord hoff htarget, writeKeyWord_of_unlocked_idle hlock hbusy]
    exact ⟨_, rfl, rfl, h0, h1, h2, h3, fun a ha => Memory.read_writeBytes_outside ha⟩

end Sys2Proof.Machine
end

section
/-! Purity of the commands (20_memory.md R67): two states that agree on what a command uses run it alike. A command's
pseudocode is followed through both states at once, one lemma per shared operation. -/

namespace Sys2Proof.Machine

/-- The states agree on everything the result of command `i` may depend on (R67). -/
structure SameOperands (i : Instr) (s u : State) : Prop where
  params : u.params = s.params
  latch : u.latch = s.latch
  crcState : i = .crcUpdate → u.crcState = s.crcState
  input : readsSrc i = true → ∀ a, s.srcOff ≤ a → a < s.srcOff + s.srcLen → u.buf.read a = s.buf.read a
  key : usesKey i = true → ∀ a, a < s.keyCount → u.key.read a = s.key.read a

/-- Run from `s` to `t` and from `u` to `r`, a command gave the result registers the same values or left them alone. -/
structure SameRegisters (s u t r : State) : Prop where
  crcState : r.crcState = t.crcState ∨ (t.crcState = s.crcState ∧ r.crcState = u.crcState)
  ts : r.ts = t.ts ∨ (t.ts = s.ts ∧ r.ts = u.ts)
  digest : r.digest = t.digest ∨ (t.digest = s.digest ∧ r.digest = u.digest)

/-- `SameRegisters`, with the same completion and the same bytes in the output range it names. -/
structure SameOutcome (s u t r : State) : Prop extends SameRegisters s u t r where
  code : r.code = t.code
  outOff : r.outOff = t.outOff
  outLen : r.outLen = t.outLen
  output : ∀ a, t.outOff.toNat ≤ a → a < t.outOff.toNat + t.outLen.toNat → r.buf.read a = t.buf.read a

/-- If the run from `s` completes, so does the one from `u`, with the same outcome. -/
def Corresponds (s u : State) (x y : Result) : Prop :=
  ∀ t, x = .next t → ∃ r, y = .next r ∧ SameOutcome s u t r

theorem SameRegisters.refl (s u : State) : SameRegisters s u s u :=
  ⟨.inr ⟨rfl, rfl⟩, .inr ⟨rfl, rfl⟩, .inr ⟨rfl, rfl⟩⟩

namespace SameOperands

variable {i : Instr} {s u : State}

theorem srcLen (h : SameOperands i s u) : u.srcLen = s.srcLen := congrArg (·.len.toNat) h.latch

theorem src (h : SameOperands i s u) : u.latch.src = s.latch.src := congrArg (·.src) h.latch

theorem dst (h : SameOperands i s u) : u.latch.dst = s.latch.dst := congrArg (·.dst) h.latch

theorem now (h : SameOperands i s u) : u.latch.now = s.latch.now := congrArg (·.now) h.latch

theorem dstOff (h : SameOperands i s u) : u.dstOff = s.dstOff := congrArg (·.dst.toNat) h.latch

theorem commonCheck_eq (h : SameOperands i s u) : commonCheck i u = commonCheck i s := by
  simp only [commonCheck, State.srcOff, State.srcLen, State.dstOff, State.keyCount, h.params, h.latch]

theorem readInput_eq (h : SameOperands i s u) (hi : readsSrc i = true) :
    u.buf.readBytes u.srcOff u.srcLen = s.buf.readBytes s.srcOff s.srcLen := by
  simp only [State.srcOff, State.srcLen, h.latch]
  exact Memory.readBytes_congr (h.input hi)

theorem readKey_eq (h : SameOperands i s u) (hi : usesKey i = true) :
    u.key.readBytes 0 u.keyCount = s.key.readBytes 0 s.keyCount := by
  simp only [State.keyCount, h.latch]
  exact Memory.readBytes_congr fun a _ ha => h.key hi a (ha.trans_eq (Nat.zero_add _))

end SameOperands

/-- A range holds what was written to it, whatever was there. -/
theorem Memory.read_writeBytes_congr (m m' : Memory) {off a : Nat} {bs : List Byte} (hlo : off ≤ a)
    (hhi : a < off + bs.length) : (m'.writeBytes off bs).read a = (m.writeBytes off bs).read a := by
  obtain ⟨j, rfl⟩ := Nat.exists_eq_add_of_le hlo
  have hj : j < bs.length := by omega
  rw [Memory.read_writeBytes_inside hj, Memory.read_writeBytes_inside hj]

namespace Corresponds

variable {i : Instr} {s u s' u' : State}

/-- Completion in corresponding states. -/
theorem complete {c : Code} {o n : Word} (hreg : SameRegisters s u s' u')
    (hout : c = .ok → ∀ a, o.toNat ≤ a → a < o.toNat + n.toNat → u'.buf.read a = s'.buf.read a) :
    Corresponds s u (.next (s'.complete c o n)) (.next (u'.complete c o n)) := by
  rintro _ ⟨⟩
  refine ⟨_, rfl, { toSameRegisters := ⟨hreg.crcState, hreg.ts, hreg.digest⟩,
                    code := rfl, outOff := rfl, outLen := rfl, output := fun a hlo hhi => ?_ }⟩
  by_cases hc : c = .ok
  · rw [State.complete_outOff, if_pos hc] at hlo hhi
    rw [State.complete_outLen, if_pos hc] at hhi
    exact hout hc a hlo hhi
  · rw [State.complete_outOff, State.complete_outLen, if_neg hc, if_neg hc] at hhi
    exact absurd hhi (Nat.not_lt_zero a)

theorem finish {o n : Word} (hreg : SameRegisters s u s' u')
    (hout : ∀ a, o.toNat ≤ a → a < o.toNat + n.toNat → u'.buf.read a = s'.buf.read a) :
    Corresponds s u (s'.finish o n) (u'.finish o n) :=
  complete hreg fun _ => hout

/-- A command without output range. -/
theorem finish_empty (hreg : SameRegisters s u s' u') : Corresponds s u (s'.finish 0 0) (u'.finish 0 0) :=
  finish hreg fun a _ ha => absurd ha (Nat.not_lt_zero a)

/-- A command whose output range is what it has just written. -/
theorem finish_writing {bs : List Byte} {o n : Word} (hreg : SameRegisters s u s' u')
    (hs : s'.buf = s.buf.writeBytes o.toNat bs) (hu : u'.buf = u.buf.writeBytes o.toNat bs)
    (hlen : n.toNat = bs.length) :
    Corresponds s u (s'.finish o n) (u'.finish o n) := by
  refine finish hreg fun a hlo hhi => ?_
  rw [hs, hu]
  exact Memory.read_writeBytes_congr s.buf u.buf hlo (hlen ▸ hhi)

theorem raise (c : Code) (hreg : SameRegisters s u s' u') : Corresponds s u (s'.raise c) (u'.raise c) :=
  complete hreg fun _ a _ ha => absurd ha (Nat.not_lt_zero a)

theorem ite {p : Prop} [Decidable p] {x y x' y' : Result} (hpos : p → Corresponds s u x y)
    (hneg : ¬ p → Corresponds s u x' y') :
    Corresponds s u (if p then x else x') (if p then y else y') := by
  by_cases hp : p
  · rw [if_pos hp, if_pos hp]
    exact hpos hp
  · rw [if_neg hp, if_neg hp]
    exact hneg hp

theorem checked {x y : Result} (h : SameOperands i s u) (hrun : commonCheck i s = none → Corresponds s u x y) :
    Corresponds s u (checked i s x) (checked i u y) := by
  have hcheck := h.commonCheck_eq
  cases hs : commonCheck i s with
  | none =>
    rw [checked_of_none hs, checked_of_none (hcheck.trans hs)]
    exact hrun hs
  | some c =>
    rw [checked_of_some hs, checked_of_some (hcheck.trans hs)]
    exact raise c (.refl s u)

theorem withInput {f g : List Byte → Result} (h : SameOperands i s u) (hi : readsSrc i = true)
    (hrun : ∀ bs, bs.length = s.srcLen → Corresponds s u (f bs) (g bs)) :
    Corresponds s u (s.withInput f) (u.withInput g) := by
  intro t ht
  obtain ⟨bs, hbs, ht⟩ := withInput_next ht
  rw [withInput_of_some ((h.readInput_eq hi).trans hbs)]
  exact hrun bs (Memory.readBytes_length hbs) t ht

theorem withKey {f g : List Byte → Result} (h : SameOperands i s u) (hi : usesKey i = true)
    (hrun : ∀ k, Corresponds s u (f k) (g k)) : Corresponds s u (s.withKey f) (u.withKey g) := by
  intro t ht
  obtain ⟨k, hk, ht⟩ := withKey_next ht
  rw [withKey_of_some ((h.readKey_eq hi).trans hk)]
  exact hrun k t ht

end Corresponds

/-- The output length of a command whose checks pass fits its register, as BUF is small (R5, R96). -/
theorem outputLen_toNat {i : Instr} {s : State} (hwf : s.params.wf = true) (hi : writesDst i = true)
    (hcheck : commonCheck i s = none) : (u32 (outputLen i s.srcLen)).toNat = outputLen i s.srcLen := by
  obtain ⟨-, -, hbuf, -⟩ := (Params.wf_iff _).1 hwf
  obtain ⟨-, -, hdst⟩ := commonCheck_none_iff.1 hcheck
  obtain ⟨hfits, -⟩ := hdst hi
  exact u32_toNat (by omega)

/-- The `payloadLen` bytes from L.SRC + `skip` on lie in the input range, so the states agree on them. -/
theorem SameOperands.output_in_input {i : Instr} {s u : State} (h : SameOperands i s u) (hwf : s.params.wf = true)
    (hi : readsSrc i = true) (hcheck : commonCheck i s = none) {skip : Word} {n : Nat}
    (hn : skip.toNat + n ≤ s.srcLen) (a : Nat) (hlo : (s.latch.src + skip).toNat ≤ a)
    (hhi : a < (s.latch.src + skip).toNat + (u32 n).toNat) : u.buf.read a = s.buf.read a := by
  obtain ⟨-, -, hbuf, -⟩ := (Params.wf_iff _).1 hwf
  obtain ⟨-, hsrc, -⟩ := commonCheck_none_iff.1 hcheck
  have hrange : s.srcOff + s.srcLen ≤ s.params.bufSize := hsrc hi
  have hoff : (s.latch.src + skip).toNat = s.srcOff + skip.toNat :=
    BitVec.toNat_add_of_lt (show s.srcOff + skip.toNat < 2 ^ 32 by omega)
  rw [u32_toNat (by omega)] at hhi
  exact h.input hi a (by omega) (by omega)

section
variable {s u : State}

theorem execNop_pure (h : SameOperands .nop s u) : Corresponds s u (execNop s) (execNop u) :=
  .checked h fun _ => .finish_empty (.refl s u)

theorem execCrcInit_pure (h : SameOperands .crcInit s u) : Corresponds s u (execCrcInit s) (execCrcInit u) :=
  .checked h fun _ => .finish_empty { SameRegisters.refl s u with crcState := .inl rfl }

/-- The one command whose result depends on CRC_STATE. -/
theorem execCrcUpdate_pure (h : SameOperands .crcUpdate s u) :
    Corresponds s u (execCrcUpdate s) (execCrcUpdate u) := by
  refine .checked h fun _ => .withInput h rfl fun bs _ => .finish_empty ?_
  have hcrc : crcBytes u.crcState bs = crcBytes s.crcState bs := by rw [h.crcState rfl]
  exact { SameRegisters.refl s u with crcState := .inl hcrc }

theorem execCrc32_pure (h : SameOperands .crc32 s u) : Corresponds s u (execCrc32 s) (execCrc32 u) :=
  .checked h fun _ => .withInput h rfl fun _ _ =>
    .finish_empty { SameRegisters.refl s u with crcState := .inl rfl }

theorem execHmac_pure (h : SameOperands .hmac s u) : Corresponds s u (execHmac s) (execHmac u) :=
  .checked h fun _ => .withInput h rfl fun _ _ => .withKey h rfl fun _ =>
    .finish_empty { SameRegisters.refl s u with digest := .inl rfl }

/-- The bytes written are named and compared by `dsimp only`: plain `rfl` would compute the 40 digits. -/
theorem execHmacHex_pure (h : SameOperands .hmacHex s u) : Corresponds s u (execHmacHex s) (execHmacHex u) := by
  refine .checked h fun _ => .withInput h rfl fun bs _ => .withKey h rfl fun k => ?_
  rw [h.dstOff, h.dst]
  exact .finish_writing (bs := tagText (hmacSha1 k bs)) { SameRegisters.refl s u with digest := .inl rfl }
    (by dsimp only) (by dsimp only) (tagText_length _).symm

theorem execPackCsum_pure (hwf : s.params.wf = true) (h : SameOperands .packCsum s u) :
    Corresponds s u (execPackCsum s) (execPackCsum u) := by
  refine .checked h fun hcheck => .withInput h rfl fun bs hbs => ?_
  rw [h.dstOff, h.srcLen, h.dst, h.now]
  have hlen : (u32 (s.srcLen + 12)).toNat = s.srcLen + 12 := outputLen_toNat hwf rfl hcheck
  exact .finish_writing { SameRegisters.refl s u with crcState := .inl rfl, ts := .inl rfl } rfl rfl
    (by rw [hlen, csumBody_length, hbs])

theorem execPackAuth_pure (hwf : s.params.wf = true) (h : SameOperands .packAuth s u) :
    Corresponds s u (execPackAuth s) (execPackAuth u) := by
  refine .checked h fun hcheck => .withInput h rfl fun bs hbs => .withKey h rfl fun k => ?_
  rw [h.dstOff, h.srcLen, h.dst]
  have hlen : (u32 (s.srcLen + 52)).toNat = s.srcLen + 52 := outputLen_toNat hwf rfl hcheck
  exact .finish_writing { SameRegisters.refl s u with digest := .inl rfl } rfl rfl
    (by rw [hlen, authFrame_length, hbs])

/-- The payload that UNPACK_CSUM names stands in the input range. -/
theorem unpackCsumFields_pure (hwf : s.params.wf = true) (h : SameOperands .unpackCsum s u)
    (hcheck : commonCheck .unpackCsum s = none) (body : List Byte) {n : Nat} (hn : n + 12 = s.srcLen) :
    Corresponds s u (unpackCsumFields s body n) (unpackCsumFields u body n) := by
  simp only [unpackCsumFields, h.src, h.now]
  have hreg (c tsv : Word) : SameRegisters s u { s with crcState := c, ts := tsv }
      { u with crcState := c, ts := tsv } :=
    { SameRegisters.refl s u with crcState := .inl rfl, ts := .inl rfl }
  have hin : (4 : Word).toNat + n ≤ s.srcLen := by
    rw [show (4 : Word).toNat = 4 from rfl]
    omega
  exact .ite (fun _ => .raise _ (hreg ..)) fun _ =>
    .ite (fun _ => .finish (hreg ..) (h.output_in_input hwf rfl hcheck hin)) fun _ => .raise _ (hreg ..)

theorem execUnpackCsum_pure (hwf : s.params.wf = true) (h : SameOperands .unpackCsum s u) :
    Corresponds s u (execUnpackCsum s) (execUnpackCsum u) := by
  refine .checked h fun hcheck => .withInput h rfl fun body _ => ?_
  rw [h.srcLen]
  exact .ite (fun _ => .raise _ (.refl s u)) fun _ => .ite (fun _ => .raise _ (.refl s u)) fun hn =>
    unpackCsumFields_pure hwf h hcheck body (not_not.1 hn).symm

/-- The payload that UNPACK_AUTH names stands in the input range. -/
theorem unpackAuthTag_pure (hwf : s.params.wf = true) (h : SameOperands .unpackAuth s u)
    (hcheck : commonCheck .unpackAuth s = none) {payload : List Byte} (tag : List Byte)
    (hlen : payload.length + 8 ≤ s.srcLen) :
    Corresponds s u (unpackAuthTag s payload tag) (unpackAuthTag u payload tag) := by
  refine .withKey h rfl fun k => ?_
  simp only [h.src]
  have hreg : SameRegisters s u { s with digest := hmacSha1 k payload } { u with digest := hmacSha1 k payload } :=
    { SameRegisters.refl s u with digest := .inl rfl }
  have hin : (8 : Word).toNat + payload.length ≤ s.srcLen := by
    rw [show (8 : Word).toNat = 8 from rfl]
    omega
  exact .ite (fun _ => .finish hreg (h.output_in_input hwf rfl hcheck hin)) fun _ => .raise _ hreg

theorem unpackAuthInner_pure (hwf : s.params.wf = true) (h : SameOperands .unpackAuth s u)
    (hcheck : commonCheck .unpackAuth s = none) {inner : List Byte} (hlen : inner.length ≤ s.srcLen) :
    Corresponds s u (unpackAuthInner s inner) (unpackAuthInner u inner) := by
  refine .ite (fun _ => .raise _ (.refl s u)) fun _ => .ite (fun _ => .raise _ (.refl s u)) fun hn =>
    .ite (fun _ => .raise _ (.refl s u)) fun _ => unpackAuthTag_pure hwf h hcheck _ ?_
  rw [slice_length]
  omega

theorem execUnpackAuth_pure (hwf : s.params.wf = true) (h : SameOperands .unpackAuth s u) :
    Corresponds s u (execUnpackAuth s) (execUnpackAuth u) := by
  refine .checked h fun hcheck => .withInput h rfl fun body hbody => ?_
  rw [h.srcLen]
  refine .ite (fun _ => .raise _ (.refl s u)) fun _ => .ite (fun _ => .raise _ (.refl s u)) fun _ =>
    unpackAuthInner_pure hwf h hcheck ?_
  rw [List.length_drop, hbody]
  exact Nat.sub_le ..

theorem exec_pure {i : Instr} (hwf : s.params.wf = true) (h : SameOperands i s u) :
    Corresponds s u (exec i s) (exec i u) := by
  cases i with
  | nop => exact execNop_pure h
  | crcInit => exact execCrcInit_pure h
  | crcUpdate => exact execCrcUpdate_pure h
  | crc32 => exact execCrc32_pure h
  | hmac => exact execHmac_pure h
  | hmacHex => exact execHmacHex_pure h
  | packCsum => exact execPackCsum_pure hwf h
  | unpackCsum => exact execUnpackCsum_pure hwf h
  | packAuth => exact execPackAuth_pure hwf h
  | unpackAuth => exact execUnpackAuth_pure hwf h

end

theorem readsSrc_iff (i : Instr) : readsSrc i = true ↔ i ∉ ([.nop, .crcInit] : List Instr) := by
  cases i <;> decide

theorem usesKey_iff (i : Instr) :
    usesKey i = true ↔ i ∈ ([.hmac, .hmacHex, .packAuth, .unpackAuth] : List Instr) := by
  cases i <;> decide

/-- Settles O60: the two runs correspond step by step. -/
theorem commandsArePure : Obligations.CommandsArePure := by
  intro i s u t hwf hparams hlatch hcrc hinput hkey ht
  have hsame : SameOperands i s u :=
    ⟨hparams, hlatch, hcrc, fun hi => hinput ((readsSrc_iff i).1 hi), fun hi => hkey ((usesKey_iff i).1 hi)⟩
  obtain ⟨r, hr, hout⟩ := exec_pure hwf hsame t ht
  exact ⟨r, hr, hout.code, hout.outOff, hout.outLen, hout.crcState, hout.ts, hout.digest, hout.output⟩

end Sys2Proof.Machine
end

section
/-! Which words the decoder takes (30_encoding.md R76, R77, R90), and what a CMD write of any other word leads to. -/

namespace Sys2Proof

/-- The mask of each row keeps the whole word, and its pattern is the command's own word (R76, R90). -/
theorem opcodeTable_row : ∀ r ∈ opcodeTable, r.mask = BitVec.allOnes 32 ∧ r.pattern = encode r.instr := by decide

theorem decodeWord_encode (i : Instr) : decodeWord (encode i) = .ok i := by
  cases i <;> decide

/-- The row a word selects has that word as its pattern. -/
theorem eq_encode_of_decodeWord {w : Word} {i : Instr} (h : decodeWord w = .ok i) : w = encode i := by
  unfold decodeWord at h
  split at h
  next r hfind =>
    obtain ⟨hmask, hpattern⟩ := opcodeTable_row r (List.mem_of_find?_eq_some hfind)
    have hselect : w &&& r.mask = r.pattern := by simpa only [beq_iff_eq] using List.find?_some hfind
    rw [hmask, BitVec.and_allOnes, hpattern] at hselect
    rwa [← Except.ok.inj h]
  next => cases h

theorem decodeWord_eq_ok_iff {w : Word} {i : Instr} : decodeWord w = .ok i ↔ w = encode i :=
  ⟨eq_encode_of_decodeWord, fun h => h ▸ decodeWord_encode i⟩

theorem legalWord_iff {w : Word} :
    legalWord w = true ↔ w.extractLsb' 8 24 = 0 ∧ w.extractLsb' 0 8 ∈ assignedOpcodes := by
  rw [legalWord, Bool.and_eq_true, beq_iff_eq, List.contains_iff_mem]

theorem encode_legally : ∀ i : Instr, Laws.EncodesLegally.Statement i
  | .nop => Laws.EncodesLegally.nop
  | .crcInit => Laws.EncodesLegally.crcInit
  | .crcUpdate => Laws.EncodesLegally.crcUpdate
  | .crc32 => Laws.EncodesLegally.crc32
  | .hmac => Laws.EncodesLegally.hmac
  | .hmacHex => Laws.EncodesLegally.hmacHex
  | .packCsum => Laws.EncodesLegally.packCsum
  | .unpackCsum => Laws.EncodesLegally.unpackCsum
  | .packAuth => Laws.EncodesLegally.packAuth
  | .unpackAuth => Laws.EncodesLegally.unpackAuth

/-- Each assigned opcode is some command's (R76). -/
theorem exists_opcode_eq {b : Byte} (hb : b ∈ assignedOpcodes) : ∃ i : Instr, i.opcode = b := by
  have hall : assignedOpcodes = [Instr.nop, .crcInit, .crcUpdate, .crc32, .hmac, .hmacHex, .packCsum, .unpackCsum,
      .packAuth, .unpackAuth].map Instr.opcode := by decide
  rw [hall] at hb
  obtain ⟨i, -, hi⟩ := List.mem_map.1 hb
  exact ⟨i, hi⟩

/-- A legal word is the word of the command its OPCODE names: RSV adds nothing (R72). -/
theorem exists_encode_of_legalWord {w : Word} (h : legalWord w = true) : ∃ i, w = encode i := by
  obtain ⟨hrsv, hop⟩ := legalWord_iff.1 h
  obtain ⟨i, hi⟩ := exists_opcode_eq hop
  refine ⟨i, ?_⟩
  calc w = w.extractLsb' 8 24 ++ w.extractLsb' 0 8 := (Machine.fields_append w).symm
    _ = encode i := by rw [encode, hrsv, hi]

/-- The decoder's table and the predicate of R77 take the same words. -/
theorem decodeWord_isCommand_iff_legalWord {w : Word} : (∃ i, decodeWord w = .ok i) ↔ legalWord w = true := by
  simp only [decodeWord_eq_ok_iff]
  refine ⟨?_, exists_encode_of_legalWord⟩
  rintro ⟨i, rfl⟩
  obtain ⟨hlegal, -, -⟩ := encode_legally i
  exact hlegal

theorem decodeWord_of_not_legalWord {w : Word} (h : ¬ legalWord w = true) : ∃ e, decodeWord w = .error e := by
  cases hd : decodeWord w with
  | ok i => exact absurd (decodeWord_isCommand_iff_legalWord.1 ⟨i, hd⟩) h
  | error e => exact ⟨e, rfl⟩

end Sys2Proof

namespace Sys2Proof.Machine

/-- A CMD write while idle is an accept (R92). -/
theorem busWrite_cmd_of_idle {s : State} (h : s.busy = false) (w : Word) :
    s.busWrite 0x00C 32 w = { s.accept w with resp := .written } := by
  rw [busWrite_reg (r := .cmd) (by decide) (by decide), State.writeReg, State.writeCmd, h,
    if_neg Bool.false_ne_true]

/-- A completion with a failure code leaves an empty output (R100). -/
theorem complete_of_ne_ok {s : State} {c : Code} (h : c ≠ .ok) (o n : Word) :
    s.complete c o n = { s with code := c, outOff := 0, outLen := 0, busy := false, done := true } := by
  rw [State.complete, if_neg h, if_neg h]

/-- The perform step of a word that is no command (R77). -/
theorem perform_of_not_legalWord {s : State} (hbusy : s.busy = true) (h : ¬ legalWord s.commandWord = true) :
    perform s = .next
      { s with code := .illegalCommand, outOff := 0, outLen := 0, busy := false, done := true } := by
  obtain ⟨e, he⟩ := decodeWord_of_not_legalWord h
  rw [perform_of_error hbusy he, complete_of_ne_ok (by decide)]

/-- Settles O2: the table rows are the legal words, and the word an accept latches is the word written. -/
theorem illegalWordIsAcceptedAndFails : Obligations.IllegalWordIsAcceptedAndFails := by
  intro s w legal
  have hlegal : legalWord w = true ↔ legal := legalWord_iff
  refine ⟨decodeWord_isCommand_iff_legalWord.trans hlegal, fun hillegal hidle => ?_⟩
  have hword : { s.accept w with resp := .written }.commandWord = w := commandWord_accept s w
  rw [busWrite_cmd_of_idle hidle]
  refine ⟨rfl, rfl, perform_of_not_legalWord rfl ?_⟩
  rwa [hword, hlegal]

end Sys2Proof.Machine
end

section
/-! The big-endian integer encoding and its inverse (30_encoding.md R110, R111, R113). -/

namespace Sys2Proof.Machine

theorem dec32_cons4 (b0 b1 b2 b3 : Byte) (r : List Byte) :
    dec32 (b0 :: b1 :: b2 :: b3 :: r) = some (word4 b0 b1 b2 b3) := rfl

/-- The Insufficient outcome of R111. -/
theorem dec32_of_length_lt {b : List Byte} (h : b.length < 4) : dec32 b = none := by
  match b, h with
  | [], _ | [_], _ | [_, _], _ | [_, _, _], _ => rfl
  | _ :: _ :: _ :: _ :: _, h => exact absurd h (by simp)

/-- Adjacent bit fields of a word join to the wider field, from the most significant byte down. -/
theorem word4_extractLsb' (v : Word) :
    word4 (v.extractLsb' 24 8) (v.extractLsb' 16 8) (v.extractLsb' 8 8) (v.extractLsb' 0 8) = v := by
  have high : v.extractLsb' 24 8 ++ v.extractLsb' 16 8 = v.extractLsb' 16 16 :=
    BitVec.extractLsb'_append_extractLsb'_eq_extractLsb' rfl
  have upper : v.extractLsb' 16 16 ++ v.extractLsb' 8 8 = v.extractLsb' 8 24 :=
    BitVec.extractLsb'_append_extractLsb'_eq_extractLsb' rfl
  calc word4 (v.extractLsb' 24 8) (v.extractLsb' 16 8) (v.extractLsb' 8 8) (v.extractLsb' 0 8)
    _ = v.extractLsb' 16 16 ++ v.extractLsb' 8 8 ++ v.extractLsb' 0 8 := by rw [word4, high]
    _ = v.extractLsb' 8 24 ++ v.extractLsb' 0 8 := by rw [upper]
    _ = v := fields_append v

theorem dec32_be32 (v : Word) : dec32 (be32 v) = some v := by
  rw [be32, dec32_cons4, word4_extractLsb']

theorem be32_word4 (b0 b1 b2 b3 : Byte) : be32 (word4 b0 b1 b2 b3) = [b0, b1, b2, b3] := by
  have lane0 : (word4 b0 b1 b2 b3).extractLsb' 24 8 = b0 := by
    rw [word4, BitVec.extractLsb'_append_eq_of_le (by decide), BitVec.extractLsb'_append_eq_of_le (by decide),
      BitVec.extractLsb'_append_eq_left]
  have lane1 : (word4 b0 b1 b2 b3).extractLsb' 16 8 = b1 := by
    rw [word4, BitVec.extractLsb'_append_eq_of_le (by decide), BitVec.extractLsb'_append_eq_of_le (by decide),
      BitVec.extractLsb'_append_eq_right]
  have lane2 : (word4 b0 b1 b2 b3).extractLsb' 8 8 = b2 := by
    rw [word4, BitVec.extractLsb'_append_eq_of_le (by decide), BitVec.extractLsb'_append_eq_right]
  have lane3 : (word4 b0 b1 b2 b3).extractLsb' 0 8 = b3 := BitVec.extractLsb'_append_eq_right
  rw [be32, lane0, lane1, lane2, lane3]

/-- Settles O50: the four bytes are the four lanes of the word, in both directions. -/
theorem bigEndianInverse : Obligations.BigEndianInverse := by
  refine ⟨dec32_be32, ?_, fun _ => dec32_of_length_lt⟩
  intro b hlen
  match b, hlen with
  | b0 :: b1 :: b2 :: b3 :: r, _ => exact ⟨word4 b0 b1 b2 b3, dec32_cons4 .., be32_word4 ..⟩

end Sys2Proof.Machine
end

section
/-! Accept and drop of a CMD write, the common checks in their order, and NOP (40_command_lifecycle.md R92 to R102). -/

namespace Sys2Proof.Machine

/-- A CMD write while busy is dropped (R93). -/
theorem busWrite_cmd_of_busy {s : State} (h : s.busy = true) (w : Word) :
    s.busWrite 0x00C 32 w = { s with busyWr := true, resp := .written } := by
  rw [busWrite_reg (r := .cmd) (by decide) (by decide), State.writeReg, State.writeCmd, if_pos h]

/-- No command has an effect before its common checks have passed (R94). -/
theorem exec_of_commonCheck {i : Instr} {s : State} {c : Code} (h : commonCheck i s = some c) :
    exec i s = .next (s.complete c 0 0) := by
  cases i <;> exact checked_of_some h

/-- A failed common check changes what completion with its code changes (R101). -/
theorem exec_of_failed_check {i : Instr} {s : State} {c : Code} (hc : c ≠ .ok) (h : commonCheck i s = some c) :
    exec i s = .next { s with code := c, outOff := 0, outLen := 0, busy := false, done := true } := by
  rw [exec_of_commonCheck h, complete_of_ne_ok hc]

theorem readsSrc_iff_mem (i : Instr) : readsSrc i = true ↔
    i ∈ ([.crcUpdate, .crc32, .hmac, .hmacHex, .packCsum, .unpackCsum, .packAuth, .unpackAuth] : List Instr) := by
  cases i <;> decide

theorem writesDst_iff_mem (i : Instr) :
    writesDst i = true ↔ i ∈ ([.hmacHex, .packCsum, .packAuth] : List Instr) := by
  cases i <;> decide

/-- `out_len` of the three commands of WRITES_DST (R95 d). -/
theorem outputLen_of_writesDst {i : Instr} (h : writesDst i = true) (n : Nat) :
    outputLen i n = if i = .hmacHex then 40 else if i = .packCsum then n + 12 else n + 52 := by
  cases i with
  | hmacHex | packCsum | packAuth => rfl
  | nop | crcInit | crcUpdate | crc32 | hmac | unpackCsum | unpackAuth => cases h

theorem not_rangeOk_iff (p : Params) (off n : Nat) : (!rangeOk p off n) = true ↔ p.bufSize < off + n := by
  rw [rangeOk, Bool.not_eq_true', decide_eq_false_iff_not, not_le]

theorem overlap_iff (a n b m : Nat) : overlap a n b m = true ↔ 0 < n ∧ 0 < m ∧ a < b + m ∧ b < a + n := by
  simp only [overlap, Bool.and_eq_true, decide_eq_true_eq, and_assoc]

/-- Settles O12: each test of `commonCheck` is the condition R95 to R99 give it, so the first condition that holds
names the code. -/
theorem commonChecksInOrder : Obligations.CommonChecksInOrder := by
  intro i s inKey inSrc inDst src n dst m failed badHash badKey badSrc badDst overlaps
  have hkey : usesKey i = true ↔ inKey := usesKey_iff i
  have hsrc : readsSrc i = true ↔ inSrc := readsSrc_iff_mem i
  have hdst : writesDst i = true ↔ inDst := writesDst_iff_mem i
  have hlen (h : inDst) : outputLen i n = m := outputLen_of_writesDst (hdst.2 h) n
  have testHash : (usesKey i && s.latch.hash != 0) = true ↔ badHash := by
    rw [Bool.and_eq_true, hkey, bne_iff_ne]
  have testKey : (usesKey i && decide (s.params.keySize < s.keyCount)) = true ↔ badKey := by
    rw [Bool.and_eq_true, hkey, decide_eq_true_eq]
  have testSrc : (readsSrc i && !rangeOk s.params src n) = true ↔ badSrc := by
    rw [Bool.and_eq_true, hsrc, not_rangeOk_iff]
  have testDst : (writesDst i && !rangeOk s.params dst (outputLen i n)) = true ↔ badDst := by
    rw [Bool.and_eq_true, hdst, not_rangeOk_iff]
    exact and_congr_right fun h => by rw [hlen h]
  have testOverlap : (writesDst i && overlap src n dst (outputLen i n)) = true ↔ overlaps := by
    rw [Bool.and_eq_true, hdst, overlap_iff]
    exact and_congr_right fun h => by rw [hlen h]
  refine ⟨?illegal, ?hash, ?key, ?source, ?destination, ?overlap⟩
  case illegal =>
    intro e hbusy he
    rw [perform_of_error hbusy he, complete_of_ne_ok (by decide)]
  case hash =>
    intro hfail
    exact exec_of_failed_check (by decide) (by rw [commonCheck, if_pos (testHash.2 hfail)])
  case key =>
    intro hashOk hfail
    exact exec_of_failed_check (by decide) (by
      rw [commonCheck, if_neg (mt testHash.1 hashOk), if_pos (testKey.2 hfail)])
  case source =>
    intro hashOk keyOk hfail
    exact exec_of_failed_check (by decide) (by
      rw [commonCheck, if_neg (mt testHash.1 hashOk), if_neg (mt testKey.1 keyOk), if_pos (testSrc.2 hfail)])
  case destination =>
    intro hashOk keyOk sourceOk hfail
    exact exec_of_failed_check (by decide) (by
      rw [commonCheck, if_neg (mt testHash.1 hashOk), if_neg (mt testKey.1 keyOk), if_neg (mt testSrc.1 sourceOk),
        if_pos (testDst.2 hfail)])
  case overlap =>
    intro hashOk keyOk sourceOk destinationOk hfail
    exact exec_of_failed_check (by decide) (by
      rw [commonCheck, if_neg (mt testHash.1 hashOk), if_neg (mt testKey.1 keyOk), if_neg (mt testSrc.1 sourceOk),
        if_neg (mt testDst.1 destinationOk), if_pos (testOverlap.2 hfail)])

/-- Settles O10: DONE falls with the accept, and IRQ with DONE. -/
theorem commandAcceptLatchesOperands : Obligations.CommandAcceptLatchesOperands := by
  intro s w hidle
  rw [busWrite_cmd_of_idle hidle]
  refine ⟨rfl, ?_⟩
  rw [irq_with_resp, State.irq, State.accept_done, Bool.and_false]

/-- Settles O11. -/
theorem commandWriteWhileBusyIsDropped : Obligations.CommandWriteWhileBusyIsDropped :=
  fun _ w hbusy => busWrite_cmd_of_busy hbusy w

/-- NOP is in no class of R95, so no common check can fail for it. -/
theorem commonCheck_nop (s : State) : commonCheck .nop s = none :=
  commonCheck_none_iff.2 ⟨nofun, nofun, nofun⟩

/-- Settles O16: NOP has no operand to check and no step before its completion. -/
theorem nopCompletes : Obligations.NopCompletes := by
  refine ⟨decodeWord_encode .nop, fun s => ?_⟩
  calc exec .nop s
    _ = s.finish 0 0 := checked_of_none (commonCheck_nop s)
    _ = _ := rfl

end Sys2Proof.Machine
end

section
/-! The CRC-32 engine: the update function over a concatenation, CRC_INIT, CRC_UPDATE and what CRC_STATE and CRC_RESULT
read afterwards (41_crc32.md R117 to R123). -/

namespace Sys2Proof.Machine

theorem crcBytes_nil (c : Word) : crcBytes c [] = c := rfl

theorem crcBytes_cons (c : Word) (b : Byte) (r : List Byte) : crcBytes c (b :: r) = crcBytes (crcByte c b) r := rfl

/-- The running state is all that an update needs from the bytes before it (R122). -/
theorem crcBytes_append (c : Word) (a b : List Byte) : crcBytes c (a ++ b) = crcBytes (crcBytes c a) b := by
  induction a generalizing c with
  | nil => rw [List.nil_append, crcBytes_nil]
  | cons x a ih => rw [List.cons_append, crcBytes_cons, crcBytes_cons, ih]

/-- CRC_INIT is in no class of R95, so no common check can fail for it. -/
theorem commonCheck_crcInit (s : State) : commonCheck .crcInit s = none :=
  commonCheck_none_iff.2 ⟨nofun, nofun, nofun⟩

theorem exec_crcInit (s : State) :
    exec .crcInit s = .next ({ s with crcState := crcInitial }.complete .ok 0 0) :=
  checked_of_none (commonCheck_crcInit s)

theorem exec_crcUpdate_of_input {s : State} {input : List Byte} (hpass : ChecksPass .crcUpdate s)
    (hin : InputIs s input) :
    exec .crcUpdate s = .next ({ s with crcState := crcBytes s.crcState input }.complete .ok 0 0) := by
  have hcheck : commonCheck .crcUpdate s = none := (commonCheck_eq_none_iff_checksPass ..).2 hpass
  exact (checked_of_none hcheck).trans (withInput_of_some hin)

theorem crcState_and_idle_of_exec_crcUpdate {s t : State} {input : List Byte} (hpass : ChecksPass .crcUpdate s)
    (hin : InputIs s input) (h : exec .crcUpdate s = .next t) :
    t.crcState = crcBytes s.crcState input ∧ t.busy = false := by
  obtain rfl := Host.Outcome.next.inj ((exec_crcUpdate_of_input hpass hin).symm.trans h)
  exact ⟨State.complete_crcState .., State.complete_busy ..⟩

/-- No register is hidden while no command is in flight (R53). -/
theorem busRead_reg_of_idle {s : State} {off : Nat} {r : Reg} (hidle : s.busy = false)
    (ha : accessOk 32 off = true) (h : regAt off = some r) : s.busRead off 32 = s.answer (s.readReg r) := by
  rw [busRead_reg ha h, hidle, Bool.false_and, if_neg Bool.false_ne_true]

theorem busRead_crcState_of_idle {s : State} (hidle : s.busy = false) :
    (s.busRead 0x030 32).resp = .data s.crcState := by
  rw [busRead_reg_of_idle (r := .crcState) hidle (by decide) (by decide), State.answer_resp, State.readReg]

/-- CRC_RESULT is a function of the running state (R38). -/
theorem busRead_crcResult_of_idle {s : State} (hidle : s.busy = false) :
    (s.busRead 0x034 32).resp = .data (crcResult s.crcState) := by
  rw [busRead_reg_of_idle (r := .crcResult) hidle (by decide) (by decide), State.answer_resp, State.readReg]

/-- The running state after the check string of R123, as the example of R120 gives it. Taken byte by byte: `decide` on
two bytes at once runs into the recursion limit. -/
theorem crcBytes_checkString :
    crcBytes crcInitial [0x31, 0x32, 0x33, 0x34, 0x35, 0x36, 0x37, 0x38, 0x39] = 0x340BC6D9 := by
  have byte1 : crcByte crcInitial 0x31 = 0x7C231048 := by decide
  have byte2 : crcByte 0x7C231048 0x32 = 0xB0ACBB32 := by decide
  have byte3 : crcByte 0xB0ACBB32 0x33 = 0x77B79C2D := by decide
  have byte4 : crcByte 0x77B79C2D 0x34 = 0x641C1F5C := by decide
  have byte5 : crcByte 0x641C1F5C 0x35 = 0x340AC5E3 := by decide
  have byte6 : crcByte 0x340AC5E3 0x36 = 0xF68D2C9E := by decide
  have byte7 : crcByte 0xF68D2C9E 0x37 = 0xAFFC9660 := by decide
  have byte8 : crcByte 0xAFFC9660 0x38 = 0x651F2550 := by decide
  have byte9 : crcByte 0x651F2550 0x39 = 0x340BC6D9 := by decide
  simp only [crcBytes_cons, crcBytes_nil, byte1, byte2, byte3, byte4, byte5, byte6, byte7, byte8, byte9]

/-- Settles O20: each CRC_UPDATE goes on from the running state the command before it left, and the latch between them
holds no part of that state. -/
theorem crcUpdatesCompose : Obligations.CrcUpdatesCompose := by
  refine ⟨fun c a b => (crcBytes_append c a b).symm, ?_⟩
  intro s s1 s2 t a b hinit hpass1 hin1 hexec1 l hpass2 hin2 hexec2
  have hs1 : s1.crcState = crcInitial := by rw [execCrcInit_next hinit, State.complete_crcState]
  obtain ⟨hs2, -⟩ := crcState_and_idle_of_exec_crcUpdate hpass1 hin1 hexec1
  obtain ⟨ht, hidle⟩ := crcState_and_idle_of_exec_crcUpdate hpass2 hin2 hexec2
  have hstate : t.crcState = crcBytes crcInitial (a ++ b) :=
    calc t.crcState
      _ = crcBytes s2.crcState b := ht
      _ = crcBytes (crcBytes s1.crcState a) b := by rw [hs2]
      _ = crcBytes crcInitial (a ++ b) := by rw [hs1, crcBytes_append]
  rw [busRead_crcResult_of_idle hidle, hstate, crc32Of]

/-- Settles O17: CRC_INIT has no operand to check, and the complement of its running state is 0. -/
theorem crcInitCompletes : Obligations.CrcInitCompletes := by
  refine ⟨decodeWord_encode .crcInit, fun s => ⟨_, exec_crcInit s, rfl, ?state, ?result⟩⟩
  case state => exact busRead_crcState_of_idle (State.complete_busy ..)
  case result =>
    have hresult : crcResult crcInitial = 0 := by decide
    rw [busRead_crcResult_of_idle (State.complete_busy ..), State.complete_crcState, hresult]

/-- Settles O21: the check value is the complement of the running state after the check string. -/
theorem crcCheckValue : Obligations.CrcCheckValue := by
  have hcomplement : crcResult 0x340BC6D9 = 0xCBF43926 := by decide
  calc crc32Of [0x31, 0x32, 0x33, 0x34, 0x35, 0x36, 0x37, 0x38, 0x39]
    _ = crcResult 0x340BC6D9 := congrArg crcResult crcBytes_checkString
    _ = 0xCBF43926 := hcomplement

end Sys2Proof.Machine
end

section
/-! SHA-1: the padding, the message schedule, the rounds of a block and the blocks of a message
(42_hmac.md R126 to R129). -/

namespace Sys2Proof.Machine

/-! The padding (R126) -/

theorem sha1ZeroCount_fits (l : Nat) : (l + 1 + sha1ZeroCount l) % 64 = 56 := by
  rw [sha1ZeroCount]
  omega

theorem sha1ZeroCount_least {l j : Nat} (h : j < sha1ZeroCount l) : (l + 1 + j) % 64 ≠ 56 := by
  rw [sha1ZeroCount] at h
  omega

theorem sha1Pad_length (m : List Byte) : (sha1Pad m).length = m.length + 1 + sha1ZeroCount m.length + 8 := by
  simp only [sha1Pad, List.length_append, List.length_singleton, List.length_replicate, be64_length]

theorem sha1Pad_length_mod (m : List Byte) : (sha1Pad m).length % 64 = 0 := by
  have hfits := sha1ZeroCount_fits m.length
  rw [sha1Pad_length]
  omega

/-- A byte of the `be32` of one half of a u64 is a byte of the u64. -/
theorem extractLsb'_half (v : BitVec 64) {k s : Nat} (hs : s + 8 ≤ 32) :
    (v.extractLsb' k 32).extractLsb' s 8 = BitVec.ofNat 8 (v.toNat / 2 ^ (k + s)) := by
  apply BitVec.eq_of_getLsbD_eq
  intro i hi
  have h : s + i < 32 := by omega
  rw [← Nat.shiftRight_eq_div_pow]
  simp only [BitVec.getLsbD_extractLsb', BitVec.getLsbD_ofNat, Nat.testBit_shiftRight, BitVec.testBit_toNat, hi, h,
    decide_true, Bool.true_and, Nat.add_assoc]

/-- `be64` byte by byte: byte `i` has weight `256 ^ (7 - i)`. -/
theorem be64_eq_map (v : BitVec 64) :
    be64 v = (List.range 8).map fun i => BitVec.ofNat 8 (v.toNat / 256 ^ (7 - i)) := by
  simp (disch := omega) only [be64, be32, extractLsb'_half]
  rfl

theorem sha1Pad_eq {m : List Byte} (h : m.length < 2 ^ 61) :
    sha1Pad m = m ++ [0x80] ++ List.replicate (sha1ZeroCount m.length) 0 ++
      (List.range 8).map (fun i => BitVec.ofNat 8 (8 * m.length / 256 ^ (7 - i))) := by
  have hlen : (BitVec.ofNat 64 (8 * m.length)).toNat = 8 * m.length := Nat.mod_eq_of_lt (by omega)
  rw [sha1Pad, be64_eq_map, hlen]

/-! The blocks of a message (R129) -/

theorem slice_drop (m : List Byte) (k i j : Nat) : slice (m.drop k) i j = slice m (k + i) (k + j) := by
  rw [slice, slice, List.drop_drop, Nat.add_sub_add_left]

theorem sha1Blocks_eq_foldl (n : Nat) (h : Digest) (m : List Byte) :
    sha1Blocks n h m =
      (List.range n).foldl (fun h j => sha1Block h (slice m (64 * j) (64 * j + 64))) h := by
  induction n generalizing h m with
  | zero => rfl
  | succ n ih =>
    have hslice (j : Nat) : slice (m.drop 64) (64 * j) (64 * j + 64) = slice m (64 * (j + 1)) (64 * (j + 1) + 64) := by
      rw [slice_drop]
      congr 1 <;> omega
    have hfirst : slice m (64 * 0) (64 * 0 + 64) = m.take 64 := rfl
    rw [sha1Blocks, ih, List.range_succ_eq_map, List.foldl_cons, List.foldl_map, hfirst]
    simp only [hslice, Nat.succ_eq_add_one]

/-! The message schedule (R127) -/

/-- The second case of `wordsOf`: fewer than four bytes are left. -/
theorem length_lt_of_ne_cons4 {b : List Byte}
    (h : ∀ b0 b1 b2 b3 r, b = b0 :: b1 :: b2 :: b3 :: r → False) : b.length < 4 := by
  match b, h with
  | [], _ | [_], _ | [_, _], _ | [_, _, _], _ => simp
  | b0 :: b1 :: b2 :: b3 :: r, h => exact (h b0 b1 b2 b3 r rfl).elim

theorem wordsOf_of_length_lt {b : List Byte} (h : b.length < 4) : wordsOf b = [] := by
  match b, h with
  | [], _ | [_], _ | [_, _], _ | [_, _, _], _ => rfl
  | _ :: _ :: _ :: _ :: _, h => exact absurd h (by simp)

theorem wordsOf_length (b : List Byte) : (wordsOf b).length = b.length / 4 := by
  induction b using wordsOf.induct with
  | case1 b0 b1 b2 b3 rest ih =>
    simp only [wordsOf, List.length_cons, ih]
    omega
  | case2 b hshort =>
    have hb := length_lt_of_ne_cons4 hshort
    rw [wordsOf_of_length_lt hb, Nat.div_eq_of_lt hb, List.length_nil]

/-- The words of a block are read where R127 reads them. -/
theorem wordsOf_getElem? (b : List Byte) (t : Nat) : (wordsOf b)[t]? = dec32 (slice b (4 * t) (4 * t + 4)) := by
  induction b using wordsOf.induct generalizing t with
  | case1 b0 b1 b2 b3 rest ih =>
    cases t with
    | zero => rfl
    | succ t =>
      have hslice : slice rest (4 * t) (4 * t + 4) =
          slice (b0 :: b1 :: b2 :: b3 :: rest) (4 + 4 * t) (4 + (4 * t + 4)) :=
        slice_drop (b0 :: b1 :: b2 :: b3 :: rest) 4 _ _
      calc (wordsOf rest)[t]?
        _ = dec32 (slice rest (4 * t) (4 * t + 4)) := ih t
        _ = _ := by rw [hslice, Nat.mul_succ, Nat.add_comm 4, Nat.add_comm 4]
  | case2 b hshort =>
    have hb := length_lt_of_ne_cons4 hshort
    have hslice : (slice b (4 * t) (4 * t + 4)).length < 4 := by
      rw [slice_length]
      omega
    rw [wordsOf_of_length_lt hb, dec32_of_length_lt hslice, List.getElem?_nil]

theorem sha1Extend_length (n : Nat) (l : List Word) : (sha1Extend n l).length = l.length + n := by
  induction n generalizing l with
  | zero => rfl
  | succ n ih => rw [sha1Extend, ih, List.length_cons, Nat.add_right_comm, Nat.add_assoc]

/-- `W[t]` of the schedule words `l`, which stand latest first. -/
def wordAt (l : List Word) (t : Nat) : Word := l.reverse.getD t 0

theorem wordAt_cons_of_lt {l : List Word} {t : Nat} (x : Word) (h : t < l.length) :
    wordAt (x :: l) t = wordAt l t := by
  rw [wordAt, List.reverse_cons, List.getD_append _ _ _ _ (by rwa [List.length_reverse]), wordAt]

theorem wordAt_cons_length (x : Word) (l : List Word) : wordAt (x :: l) l.length = x := by
  rw [wordAt, List.reverse_cons, List.getD_append_right _ _ _ _ (by rw [List.length_reverse]), List.length_reverse,
    Nat.sub_self, List.getD_cons_zero]

/-- Counting back from the latest word. -/
theorem getD_eq_wordAt {l : List Word} {i : Nat} (h : i < l.length) : l.getD i 0 = wordAt l (l.length - (i + 1)) := by
  rw [wordAt, List.getD_reverse _ (by omega)]
  congr 1
  omega

/-- The next word, its sources named as in R127. -/
theorem sha1NextWord_eq {l : List Word} (h : 16 ≤ l.length) :
    sha1NextWord l =
      rol32 (wordAt l (l.length - 3) ^^^ wordAt l (l.length - 8) ^^^ wordAt l (l.length - 14) ^^^
        wordAt l (l.length - 16)) 1 := by
  simp (disch := omega) only [sha1NextWord, getD_eq_wordAt, Nat.reduceAdd]

/-- The recurrence of R127 holds from word 16 on. -/
def MeetsRecurrence (l : List Word) : Prop :=
  ∀ t, 16 ≤ t → t < l.length →
    wordAt l t = rol32 (wordAt l (t - 3) ^^^ wordAt l (t - 8) ^^^ wordAt l (t - 14) ^^^ wordAt l (t - 16)) 1

theorem meetsRecurrence_cons {l : List Word} (hlen : 16 ≤ l.length) (h : MeetsRecurrence l) :
    MeetsRecurrence (sha1NextWord l :: l) := by
  intro t hfrom hto
  have earlier (k : Nat) (hk : 0 < k) : wordAt (sha1NextWord l :: l) (t - k) = wordAt l (t - k) :=
    wordAt_cons_of_lt _ (by rw [List.length_cons] at hto; omega)
  rw [earlier 3 (by decide), earlier 8 (by decide), earlier 14 (by decide), earlier 16 (by decide)]
  rcases Nat.lt_succ_iff_lt_or_eq.1 hto with hlt | rfl
  · rw [wordAt_cons_of_lt _ hlt, h t hfrom hlt]
  · rw [wordAt_cons_length, sha1NextWord_eq hlen]

theorem meetsRecurrence_sha1Extend (n : Nat) {l : List Word} (hlen : 16 ≤ l.length) (h : MeetsRecurrence l) :
    MeetsRecurrence (sha1Extend n l) := by
  induction n generalizing l with
  | zero => exact h
  | succ n ih => exact ih (Nat.le_succ_of_le hlen) (meetsRecurrence_cons hlen h)

/-- Extending keeps the words already there. -/
theorem wordAt_sha1Extend_of_lt (n : Nat) {l : List Word} {t : Nat} (h : t < l.length) :
    wordAt (sha1Extend n l) t = wordAt l t := by
  induction n generalizing l with
  | zero => rfl
  | succ n ih => rw [sha1Extend, ih (l := sha1NextWord l :: l) (Nat.lt_succ_of_lt h), wordAt_cons_of_lt _ h]

section
variable {block : List Byte}

theorem wordsOf_reverse_length (h : block.length = 64) : (wordsOf block).reverse.length = 16 := by
  rw [List.length_reverse, wordsOf_length, h]

theorem sha1Schedule_length (h : block.length = 64) : (sha1Schedule block).length = 80 := by
  rw [sha1Schedule, List.length_reverse, sha1Extend_length, wordsOf_reverse_length h]

theorem sha1Schedule_first (h : block.length = 64) {t : Nat} (ht : t < 16) :
    dec32 (slice block (4 * t) (4 * t + 4)) = some ((sha1Schedule block).getD t 0) := by
  have hlt : t < (wordsOf block).reverse.length := by rwa [wordsOf_reverse_length h]
  have hkept : (sha1Schedule block).getD t 0 = (wordsOf block).getD t 0 :=
    calc (sha1Schedule block).getD t 0
      _ = wordAt (wordsOf block).reverse t := wordAt_sha1Extend_of_lt 64 hlt
      _ = (wordsOf block).getD t 0 := by rw [wordAt, List.reverse_reverse]
  rw [List.length_reverse] at hlt
  rw [← wordsOf_getElem?, hkept, List.getD_eq_getElem _ _ hlt, List.getElem?_eq_getElem hlt]

theorem sha1Schedule_recurrence (h : block.length = 64) :
    MeetsRecurrence (sha1Extend 64 (wordsOf block).reverse) := by
  have hlen := wordsOf_reverse_length h
  refine meetsRecurrence_sha1Extend 64 hlen.ge fun t hfrom hto => ?_
  rw [hlen] at hto
  exact absurd hto (Nat.not_lt.2 hfrom)

end

/-! The rounds (R128, R129) -/

theorem sha1F_eq (t : Nat) (b c d : Word) :
    sha1F t b c d =
      if t ≤ 19 then (b &&& c) ||| (~~~ b &&& d) else if t ≤ 39 then b ^^^ c ^^^ d
      else if t ≤ 59 then (b &&& c) ||| (b &&& d) ||| (c &&& d) else b ^^^ c ^^^ d := by
  simp only [sha1F, Nat.le_iff_lt_add_one]

theorem sha1K_eq (t : Nat) :
    sha1K t =
      if t ≤ 19 then 0x5A827999 else if t ≤ 39 then 0x6ED9EBA1 else if t ≤ 59 then 0x8F1BBCDC
      else 0xCA62C1D6 := by
  simp only [sha1K, Nat.le_iff_lt_add_one]

theorem sha1Rounds_eq_foldl (t : Nat) (ws : List Word) (v : Digest) :
    sha1Rounds t ws v =
      (List.range ws.length).foldl (fun v j => sha1Round (t + j) (ws.getD j 0) v) v := by
  induction ws generalizing t v with
  | nil => rfl
  | cons w ws ih =>
    have hstep (j : Nat) : t + 1 + j = t + (j + 1) := by omega
    rw [sha1Rounds, ih, List.length_cons, List.range_succ_eq_map, List.foldl_cons, List.foldl_map]
    simp only [Nat.succ_eq_add_one, hstep, List.getD_cons_zero, List.getD_cons_succ, Nat.add_zero]

theorem sha1Block_eq_foldl {block : List Byte} (hlen : block.length = 64) (h : Digest) :
    sha1Block h block =
      h.add ((List.range 80).foldl (fun v t => sha1Round t ((sha1Schedule block).getD t 0) v) h) := by
  rw [sha1Block, sha1Rounds_eq_foldl, sha1Schedule_length hlen]
  simp only [Nat.zero_add]

/-- SH2 of 95_test_vectors.md. -/
theorem sha1_abc :
    sha1 [0x61, 0x62, 0x63] =
      { h0 := 0xA9993E36, h1 := 0x4706816A, h2 := 0xBA3E2571, h3 := 0x7850C26C, h4 := 0x9CD0D89D } := by
  decide +kernel

/-- Settles O23: the padding, the schedule by its recurrence, and both loops as folds over their index. -/
theorem sha1PaddingIsLeast : Obligations.Sha1PaddingIsLeast := by
  unfold Obligations.Sha1PaddingIsLeast
  intro f k
  refine ⟨?message, ?block, fun _ => rfl, sha1_abc⟩
  case message =>
    intro m hm
    exact ⟨⟨_, sha1Pad_eq hm, sha1ZeroCount_fits _, fun _ => sha1ZeroCount_least⟩, sha1Pad_length_mod m,
      sha1Blocks_eq_foldl ..⟩
  case block =>
    intro block hlen w
    refine ⟨sha1Schedule_length hlen, fun _ => sha1Schedule_first hlen, ?recurrence, fun h => ?rounds⟩
    case recurrence =>
      intro t hfrom hto
      exact sha1Schedule_recurrence hlen t hfrom (by rwa [sha1Extend_length, wordsOf_reverse_length hlen])
    case rounds =>
      have hround (v : Digest) (t : Nat) : sha1Round t (w t) v =
          { h0 := v.h0.rotateLeft 5 + f t v.h1 v.h2 v.h3 + v.h4 + k t + w t
            h1 := v.h0, h2 := v.h1.rotateLeft 30, h3 := v.h2, h4 := v.h3 } := by
        rw [sha1Round, sha1F_eq, sha1K_eq, rol32, rol32]
      rw [sha1Block_eq_foldl hlen]
      simp only [← hround]
      rfl

end Sys2Proof.Machine
end

section
/-! HMAC-SHA1 (42_hmac.md R130). -/

namespace Sys2Proof.Machine

theorem sha1Bytes_length (m : List Byte) : (sha1Bytes m).length = 20 := Digest.bytes_length (sha1 m)

theorem hmacBlockKey_of_le {key : List Byte} (h : key.length ≤ 64) :
    hmacBlockKey key = key ++ List.replicate (64 - key.length) 0 := by
  rw [hmacBlockKey, if_neg (Nat.not_lt.2 h)]

/-- A long key is replaced by its digest, which is short. -/
theorem hmacBlockKey_of_lt {key : List Byte} (h : 64 < key.length) :
    hmacBlockKey key = hmacBlockKey (sha1Bytes key) := by
  have hshort : (sha1Bytes key).length ≤ 64 := (sha1Bytes_length key).trans_le (by decide)
  rw [hmacBlockKey_of_le hshort, hmacBlockKey, if_pos h]

theorem hmacBlockKey_eq (key : List Byte) :
    let k1 := if key.length ≤ 64 then key else sha1Bytes key
    hmacBlockKey key = k1 ++ List.replicate (64 - k1.length) 0 := by
  simp only [hmacBlockKey, ← Nat.not_le, ite_not]

theorem hmacBlockKey_length (key : List Byte) : (hmacBlockKey key).length = 64 := by
  have filled {k : List Byte} (h : k.length ≤ 64) : (hmacBlockKey k).length = 64 := by
    rw [hmacBlockKey_of_le h, List.length_append, List.length_replicate, Nat.add_sub_cancel' h]
  rcases Nat.lt_or_ge 64 key.length with hlong | hshort
  · rw [hmacBlockKey_of_lt hlong, filled ((sha1Bytes_length key).trans_le (by decide))]
  · exact filled hshort

theorem xorEach_eq_zipWith (pad : Byte) (b : List Byte) :
    xorEach pad b = List.zipWith (· ^^^ ·) b (List.replicate b.length pad) := by
  induction b with
  | nil => rfl
  | cons x r ih => rw [List.length_cons, List.replicate_succ, List.zipWith_cons_cons, ← ih]; rfl

theorem hmacSha1_of_long_key {key : List Byte} (h : 64 < key.length) (m : List Byte) :
    hmacSha1 key m = hmacSha1 (sha1Bytes key) m := by
  rw [hmacSha1, hmacBlockKey_of_lt h, hmacSha1]

/-- HM2 of 95_test_vectors.md: the key "key". -/
theorem hmacSha1_shortKey :
    hmacSha1 [0x6B, 0x65, 0x79]
      [0x54, 0x68, 0x65, 0x20, 0x71, 0x75, 0x69, 0x63, 0x6B, 0x20, 0x62, 0x72, 0x6F, 0x77, 0x6E, 0x20, 0x66, 0x6F,
       0x78, 0x20, 0x6A, 0x75, 0x6D, 0x70, 0x73, 0x20, 0x6F, 0x76, 0x65, 0x72, 0x20, 0x74, 0x68, 0x65, 0x20, 0x6C,
       0x61, 0x7A, 0x79, 0x20, 0x64, 0x6F, 0x67] =
      { h0 := 0xDE7C9B85, h1 := 0xB8B78AA6, h2 := 0xBC8A7A36, h3 := 0xF70A9070, h4 := 0x1C9DB4D9 } := by
  decide +kernel

/-- HM8: the longest key that is used as it is. -/
theorem hmacSha1_blockLengthKey :
    hmacSha1 (List.replicate 64 0x6B) [0x78] =
      { h0 := 0x2C31EADF, h1 := 0x68D9BA97, h2 := 0x1AD29339, h3 := 0xD28CE725, h4 := 0xB03C11F6 } := by
  decide +kernel

/-- HM9: the shortest key that is hashed. -/
theorem hmacSha1_overlongKey :
    hmacSha1 (List.replicate 65 0x6B) [0x78] =
      { h0 := 0x7209ACA7, h1 := 0x5EC68087, h2 := 0x1725FD30, h3 := 0x9AA68974, h4 := 0x6677DBD4 } := by
  decide +kernel

/-- Settles O24: the block key is `k0`, and a long key and its digest have the same one. -/
theorem hmacHashesLongKeys : Obligations.HmacHashesLongKeys := by
  refine ⟨fun key m => ?_, sha1_abc, hmacSha1_shortKey, hmacSha1_blockLengthKey, hmacSha1_overlongKey⟩
  intro k1 k0
  have hk0 : hmacBlockKey key = k0 := hmacBlockKey_eq key
  have hlen : k0.length = 64 := hk0 ▸ hmacBlockKey_length key
  refine ⟨hlen, ?_, fun hlong => hmacSha1_of_long_key hlong m⟩
  rw [hmacSha1, hk0, xorEach_eq_zipWith, xorEach_eq_zipWith, hlen]

end Sys2Proof.Machine
end

section
/-! The hex text of a digest (42_hmac.md R131). -/

namespace Sys2Proof.Machine

theorem hexDigit_toNat (v : BitVec 4) :
    (hexDigit v).toNat = if v.toNat < 10 then 0x30 + v.toNat else 0x61 + (v.toNat - 10) := by
  have hlt : v < 10 ↔ v.toNat < 10 := BitVec.lt_def
  by_cases h : v < 10
  · rw [hexDigit, if_pos h, if_pos (hlt.1 h)]
    bv_omega
  · rw [hexDigit, if_neg h, if_neg (mt hlt.2 h)]
    bv_omega

theorem highNibble_toNat (b : Byte) : (b.extractLsb' 4 4).toNat = b.toNat / 16 := by
  rw [BitVec.extractLsb'_toNat, Nat.shiftRight_eq_div_pow]
  omega

theorem lowNibble_toNat (b : Byte) : (b.extractLsb' 0 4).toNat = b.toNat % 16 := by
  rw [BitVec.extractLsb'_toNat, Nat.shiftRight_zero]

/-- Byte `i` is rendered at places `2 * i` and `2 * i + 1`. -/
theorem hexText_getElem? (d : List Byte) (i : Nat) :
    (hexText d)[2 * i]? = d[i]?.map (fun b => hexDigit (b.extractLsb' 4 4)) ∧
    (hexText d)[2 * i + 1]? = d[i]?.map (fun b => hexDigit (b.extractLsb' 0 4)) := by
  induction d generalizing i with
  | nil => exact ⟨rfl, rfl⟩
  | cons b r ih =>
    cases i with
    | zero => exact ⟨rfl, rfl⟩
    | succ i => exact ih i

/-- Settles O25: the two digits of a byte are those of its nibbles. -/
theorem hexTextDigits : Obligations.HexTextDigits := by
  intro d i h nib
  obtain ⟨hhigh, hlow⟩ := hexText_getElem? d i
  refine ⟨hexText_length d, ?high, ?low⟩
  case high =>
    rw [hhigh, List.getElem?_eq_getElem h, Option.map_some, Option.map_some, hexDigit_toNat, highNibble_toNat]
  case low =>
    rw [hlow, List.getElem?_eq_getElem h, Option.map_some, Option.map_some, hexDigit_toNat, lowNibble_toNat]

end Sys2Proof.Machine
end

section
/-! Checksum+Freshness framing: the freshness window, UNPACK_CSUM on a body of the layout R82, and the round trip
(43_checksum_framing.md R142 to R146). -/

namespace Sys2Proof.Machine

theorem fresh_iff (ts now : Word) : fresh ts now = true ↔ now.toNat ≤ ts.toNat + 60 := decide_eq_true_iff

/-- Settles O28: the model compares `now` with `ts + 60` on naturals, so nothing is subtracted. -/
theorem freshnessWindow : Obligations.FreshnessWindow := by
  intro ts now
  rw [fresh_iff]
  omega

/-! The fields of a body (R82) -/

/-- A body of the layout R82, with any checksum field. -/
def csumLayout (payload : List Byte) (stamp f : Word) : List Byte :=
  be32 (u32 payload.length) ++ payload ++ be32 stamp ++ be32 f

/-- PACK_CSUM fills the checksum field with the CRC of timestamp and payload (R141). -/
theorem csumBody_eq_csumLayout (payload : List Byte) (ts : Word) :
    csumBody payload ts = csumLayout payload ts (crcResult (csumState (be32 ts) payload)) := rfl

theorem csumLayout_length (payload : List Byte) (stamp f : Word) :
    (csumLayout payload stamp f).length = payload.length + 12 := by
  simp only [csumLayout, List.length_append, be32_length]
  omega

/-- A word encoded in the middle of a byte sequence is the field there. -/
theorem field32_append (a c : List Byte) (v : Word) : field32 (a ++ be32 v ++ c) a.length = v := by
  have hbytes : slice (a ++ be32 v ++ c) a.length (a.length + 4) = be32 v := slice_append a (be32 v) c
  rw [field32, hbytes, dec32_be32, Option.getD_some]

section
variable (payload : List Byte) (stamp f : Word)

theorem csumLayout_lengthField : field32 (csumLayout payload stamp f) 0 = u32 payload.length := by
  rw [csumLayout, List.append_assoc, List.append_assoc]
  exact field32_append [] _ _

theorem csumLayout_payload : slice (csumLayout payload stamp f) 4 (4 + payload.length) = payload := by
  rw [csumLayout, List.append_assoc]
  exact slice_append (be32 (u32 payload.length)) payload _

/-- The fields after the payload stand behind this many bytes. -/
theorem csumLayout_prefix_length : (be32 (u32 payload.length) ++ payload).length = 4 + payload.length := by
  rw [List.length_append, be32_length]

theorem csumLayout_stampBytes :
    slice (csumLayout payload stamp f) (4 + payload.length) (8 + payload.length) = be32 stamp := by
  rw [show 8 + payload.length = 4 + payload.length + 4 by omega, ← csumLayout_prefix_length]
  exact slice_append _ (be32 stamp) (be32 f)

theorem csumLayout_stampField : field32 (csumLayout payload stamp f) (4 + payload.length) = stamp := by
  rw [← csumLayout_prefix_length]
  exact field32_append _ (be32 f) stamp

theorem csumLayout_crcField : field32 (csumLayout payload stamp f) (8 + payload.length) = f := by
  have hlen : (be32 (u32 payload.length) ++ payload ++ be32 stamp).length = 8 + payload.length := by
    rw [List.length_append, csumLayout_prefix_length, be32_length]
    omega
  rw [← hlen, csumLayout, ← List.append_nil (_ ++ be32 f)]
  exact field32_append _ [] f

end

/-! UNPACK_CSUM and the round trip -/

/-- The verdict on a body of the layout R82: checksum first, then freshness (R143, R145). -/
theorem exec_unpackCsum_of_csumLayout {s : State} {payload : List Byte} {stamp f : Word}
    (hpass : ChecksPass .unpackCsum s) (hin : InputIs s (csumLayout payload stamp f)) :
    let c := csumState (be32 stamp) payload
    let s' := { s with crcState := c, ts := stamp }
    exec .unpackCsum s =
      if crcResult c ≠ f then s'.raise .checksumInvalid
      else if fresh stamp s.latch.now then s'.finish (s.latch.src + 4) (u32 payload.length)
      else s'.raise .frameExpired := by
  have hcheck : commonCheck .unpackCsum s = none := (commonCheck_eq_none_iff_checksPass ..).2 hpass
  have hlen : s.srcLen = payload.length + 12 :=
    (Memory.readBytes_length hin).symm.trans (csumLayout_length ..)
  have hfield : (field32 (csumLayout payload stamp f) 0).toNat = payload.length := by
    have : s.srcLen < 2 ^ 32 := s.latch.len.isLt
    rw [csumLayout_lengthField, u32_toNat (by omega)]
  refine ((checked_of_none hcheck).trans (withInput_of_some hin)).trans ?_
  rw [if_neg (by omega), hfield, if_neg (by omega)]
  simp only [unpackCsumFields, csumLayout_payload, csumLayout_stampBytes, csumLayout_stampField,
    csumLayout_crcField]

/-- A range that reads as a concatenation reads as each of its parts. -/
theorem Memory.readBytes_append {m : Memory} {off n : Nat} {a b : List Byte}
    (h : m.readBytes off n = some (a ++ b)) :
    m.readBytes off a.length = some a ∧ m.readBytes (off + a.length) b.length = some b := by
  induction a generalizing off n with
  | nil =>
    obtain rfl : b.length = n := Memory.readBytes_length h
    exact ⟨rfl, h⟩
  | cons x a ih =>
    obtain rfl : (a ++ b).length + 1 = n := Memory.readBytes_length h
    obtain ⟨y, r, hy, hr, heq⟩ := Memory.readBytes_succ m off _ h
    obtain ⟨rfl, rfl⟩ := List.cons.inj heq
    obtain ⟨ha, hb⟩ := ih hr
    refine ⟨?_, ?_⟩
    · rw [List.length_cons, Memory.readBytes, hy, ha]
    · rwa [List.length_cons, Nat.add_comm a.length, ← Nat.add_assoc]

/-- The payload of a body stands in place behind the length field. -/
theorem readBytes_payload_of_csumLayout {m : Memory} {off n : Nat} {payload : List Byte} {stamp f : Word}
    (h : m.readBytes off n = some (csumLayout payload stamp f)) :
    m.readBytes (off + 4) payload.length = some payload := by
  rw [csumLayout, List.append_assoc, List.append_assoc] at h
  obtain ⟨-, hrest⟩ := Memory.readBytes_append h
  exact (Memory.readBytes_append hrest).1

/-- PACK_CSUM that completes OK has put the body into the range its output registers name, inside BUF (R142). -/
theorem output_of_execPackCsum {s t : State} {payload : List Byte} (hwf : s.params.wf = true)
    (hin : InputIs s payload) (hexec : exec .packCsum s = .next t) (hok : t.code = .ok) :
    t.outOff.toNat + t.outLen.toNat ≤ s.params.bufSize ∧
    t.buf.readBytes t.outOff.toNat t.outLen.toNat = some (csumBody payload s.latch.now) := by
  rcases execPackCsum_next hexec with ⟨c, hc, rfl⟩ | ⟨hcheck, bs, hbs, rfl⟩
  · obtain rfl : c = .ok := hok
    rcases commonCheck_code hc with h | h | h <;> cases h
  · obtain rfl : payload = bs := Option.some.inj (hin.symm.trans hbs)
    have houtLen : (u32 (s.srcLen + 12)).toNat = s.srcLen + 12 := outputLen_toNat hwf rfl hcheck
    have hbody : (csumBody payload s.latch.now).length = s.srcLen + 12 := by
      rw [csumBody_length, Memory.readBytes_length hbs]
    obtain ⟨-, -, hdst⟩ := commonCheck_none_iff.1 hcheck
    obtain ⟨hfits, -⟩ := hdst rfl
    rw [State.complete_outOff, State.complete_outLen, if_pos rfl, if_pos rfl, houtLen]
    refine ⟨hfits, ?_⟩
    rw [← hbody]
    exact Memory.readBytes_writeBytes ..

/-- Settles O33: the body packed has the layout R82 with the checksum UNPACK_CSUM recomputes, so only freshness is left
to decide. -/
theorem csumRoundTrip : Obligations.CsumRoundTrip := by
  intro s t u payload hwf hin hexec hok hparams hsrc hlen hsame
  obtain ⟨hfits, hout⟩ := output_of_execPackCsum hwf hin hexec hok
  have hbody : InputIs u (csumLayout payload s.latch.now (crcResult (csumState (be32 s.latch.now) payload))) := by
    rw [InputIs, hsrc, hlen, Memory.readBytes_congr hsame, hout, csumBody_eq_csumLayout]
  have hpass : ChecksPass .unpackCsum u :=
    ⟨nofun, fun _ => by rwa [hsrc, hlen, hparams], nofun⟩
  have hrun := exec_unpackCsum_of_csumLayout hpass hbody
  simp only [ne_eq, not_true_eq_false, if_false] at hrun
  cases hfresh : fresh s.latch.now u.latch.now with
  | false =>
    rw [hfresh, if_neg Bool.false_ne_true] at hrun
    exact ⟨_, hrun, nofun, fun _ => State.complete_code ..⟩
  | true =>
    rw [hfresh, if_pos rfl] at hrun
    refine ⟨_, hrun, fun _ => ⟨State.complete_code .., ?_⟩, nofun⟩
    obtain ⟨-, -, hbuf, -⟩ := (Params.wf_iff _).1 hwf
    have hcount : payload.length + 12 = t.outLen.toNat := by
      rw [← csumBody_length payload s.latch.now, Memory.readBytes_length hout]
    have hoff : (u.latch.src + 4).toNat = u.latch.src.toNat + 4 := by
      rw [hsrc]
      exact BitVec.toNat_add_of_lt (show t.outOff.toNat + 4 < 2 ^ 32 by omega)
    rw [State.complete_outOff, State.complete_outLen, if_pos rfl, if_pos rfl, hoff, u32_toNat (by omega)]
    exact readBytes_payload_of_csumLayout hbody

end Sys2Proof.Machine
end

section
/-! Authenticated framing: UNPACK_AUTH on a frame of the layout R83, the frame PACK_AUTH leaves in BUF, and the round
trip (44_auth_framing.md R152 to R156). -/

namespace Sys2Proof.Machine

/-- The slice from the end of the first part to the end of a concatenation. -/
theorem slice_append_end (a b : List Byte) : slice (a ++ b) a.length (a ++ b).length = b := by
  have h := slice_append a b []
  rwa [List.append_nil, ← List.length_append] at h

/-! The fields of a frame (R83), with any tag bytes -/

section
variable (payload tag : List Byte)

theorem authInner_length : (authInner payload tag).length = payload.length + tag.length + 8 := by
  simp only [authInner, List.length_append, be32_length]
  omega

/-- The length of a frame whatever its tag; `authFrame_length` is the case of a recomputed one. -/
theorem authFrame_length_of_tag : (authFrame payload tag).length = payload.length + tag.length + 12 := by
  rw [authFrame, List.length_append, be32_length, authInner_length]
  omega

theorem authFrame_outerField :
    field32 (authFrame payload tag) 0 = u32 (authInner payload tag).length :=
  field32_append [] _ _

theorem authFrame_drop_outerField : (authFrame payload tag).drop 4 = authInner payload tag := rfl

theorem authInner_lengthField : field32 (authInner payload tag) 0 = u32 payload.length := by
  rw [authInner, List.append_assoc, List.append_assoc]
  exact field32_append [] _ _

theorem authInner_payload : slice (authInner payload tag) 4 (4 + payload.length) = payload := by
  rw [authInner, List.append_assoc]
  exact slice_append (be32 (u32 payload.length)) payload _

theorem authInner_tagLengthField : field32 (authInner payload tag) (4 + payload.length) = u32 tag.length := by
  rw [← csumLayout_prefix_length]
  exact field32_append _ tag _

theorem authInner_tag : slice (authInner payload tag) (8 + payload.length) (authInner payload tag).length = tag := by
  have hprefix : (be32 (u32 payload.length) ++ payload ++ be32 (u32 tag.length)).length = 8 + payload.length := by
    rw [List.length_append, csumLayout_prefix_length, be32_length]
    omega
  rw [← hprefix]
  exact slice_append_end _ tag

end

/-! UNPACK_AUTH on a frame of the layout R83 -/

/-- The inner structure of a frame passes the three checks on it, and its payload and tag are the bytes compared. -/
theorem unpackAuthInner_authInner (s : State) {payload tag : List Byte} (h : (authInner payload tag).length < 2 ^ 32) :
    unpackAuthInner s (authInner payload tag) = unpackAuthTag s payload tag := by
  have hlen := authInner_length payload tag
  have hn : (field32 (authInner payload tag) 0).toNat = payload.length := by
    rw [authInner_lengthField, u32_toNat (by omega)]
  have htag : (field32 (authInner payload tag) (4 + payload.length)).toNat = tag.length := by
    rw [authInner_tagLengthField, u32_toNat (by omega)]
  rw [unpackAuthInner, hn, htag, if_neg (by omega), if_neg (by omega), if_neg (by omega), authInner_payload,
    authInner_tag]

/-- A frame of the layout R83 passes every length check, so the tag alone decides (R153, R154). -/
theorem exec_unpackAuth_of_authFrame {s : State} {key payload tag : List Byte} (hpass : ChecksPass .unpackAuth s)
    (hkey : KeyIs s key) (hin : InputIs s (authFrame payload tag)) :
    let s' := { s with digest := hmacSha1 key payload }
    exec .unpackAuth s =
      if tagEqual (authTag key payload) tag then s'.finish (s.latch.src + 8) (u32 payload.length)
      else s'.raise .authenticationFailed := by
  have hcheck : commonCheck .unpackAuth s = none := (commonCheck_eq_none_iff_checksPass ..).2 hpass
  have hinner := authInner_length payload tag
  have hlen : s.srcLen = payload.length + tag.length + 12 :=
    (Memory.readBytes_length hin).symm.trans (authFrame_length_of_tag ..)
  have hsmall : s.srcLen < 2 ^ 32 := s.latch.len.isLt
  have houter : (field32 (authFrame payload tag) 0).toNat = s.srcLen - 4 := by
    rw [authFrame_outerField, u32_toNat (by omega)]
    omega
  calc exec .unpackAuth s
    _ = unpackAuthInner s (authInner payload tag) := by
      refine ((checked_of_none hcheck).trans (withInput_of_some hin)).trans ?_
      rw [if_neg (by omega), houter, if_neg (not_not.2 rfl), authFrame_drop_outerField]
    _ = unpackAuthTag s payload tag := unpackAuthInner_authInner s (by omega)
    _ = _ := withKey_of_some hkey

theorem tagEqual_iff {e t : List Byte} : tagEqual e t = true ↔ e = t := beq_iff_eq

/-! The round trip -/

/-- The payload of a frame stands in place behind the two length fields. -/
theorem readBytes_payload_of_authFrame {m : Memory} {off n : Nat} {payload tag : List Byte}
    (h : m.readBytes off n = some (authFrame payload tag)) :
    m.readBytes (off + 8) payload.length = some payload := by
  rw [authFrame, authInner, List.append_assoc, List.append_assoc] at h
  obtain ⟨-, hinner⟩ := Memory.readBytes_append h
  obtain ⟨-, hrest⟩ := Memory.readBytes_append hinner
  exact (Memory.readBytes_append hrest).1

/-- PACK_AUTH that completes OK read a key of a legal length and has put the frame with that key's tag into the range
its output registers name, inside BUF (R152). -/
theorem output_of_execPackAuth {s t : State} {payload : List Byte} (hwf : s.params.wf = true)
    (hin : InputIs s payload) (hexec : exec .packAuth s = .next t) (hok : t.code = .ok) :
    ∃ key, KeyIs s key ∧ s.keyCount ≤ s.params.keySize ∧
      t.outOff.toNat + t.outLen.toNat ≤ s.params.bufSize ∧
      t.buf.readBytes t.outOff.toNat t.outLen.toNat = some (authFrame payload (authTag key payload)) := by
  rcases execPackAuth_next hexec with ⟨c, hc, rfl⟩ | ⟨hcheck, bs, key, hbs, hkey, rfl⟩
  · obtain rfl : c = .ok := hok
    rcases commonCheck_code hc with h | h | h <;> cases h
  · obtain rfl : payload = bs := Option.some.inj (hin.symm.trans hbs)
    have houtLen : (u32 (s.srcLen + 52)).toNat = s.srcLen + 52 := outputLen_toNat hwf rfl hcheck
    have hframe : (authFrame payload (authTag key payload)).length = s.srcLen + 52 := by
      rw [authFrame_length, Memory.readBytes_length hbs]
    obtain ⟨huse, -, hdst⟩ := commonCheck_none_iff.1 hcheck
    obtain ⟨-, hkeyLen⟩ := huse rfl
    obtain ⟨hfits, -⟩ := hdst rfl
    rw [State.complete_outOff, State.complete_outLen, if_pos rfl, if_pos rfl, houtLen]
    refine ⟨key, hkey, hkeyLen, hfits, ?_⟩
    rw [← hframe]
    exact Memory.readBytes_writeBytes ..

/-- Settles O37: the frame packed has the layout R83 with the tag UNPACK_AUTH recomputes from the same key bytes. -/
theorem authRoundTrip : Obligations.AuthRoundTrip := by
  intro s t u payload hwf hin hexec hok hparams hsrc hlen hkeyLen hhash hsame hsameKey
  obtain ⟨key, hkey, hkeyFits, hfits, hout⟩ := output_of_execPackAuth hwf hin hexec hok
  have hframe : InputIs u (authFrame payload (authTag key payload)) := by
    rw [InputIs, hsrc, hlen, Memory.readBytes_congr hsame, hout]
  have hkey' : KeyIs u key := by
    rw [KeyIs, hkeyLen, ← hkey]
    exact Memory.readBytes_congr fun a _ ha => hsameKey a (ha.trans_eq (Nat.zero_add _))
  have hpass : ChecksPass .unpackAuth u :=
    ⟨fun _ => ⟨hhash, by rwa [hkeyLen, hparams]⟩, fun _ => by rwa [hsrc, hlen, hparams], nofun⟩
  have hrun := (exec_unpackAuth_of_authFrame hpass hkey' hframe).trans (if_pos (tagEqual_iff.2 rfl))
  refine ⟨_, hrun, State.complete_code .., ?_⟩
  obtain ⟨-, -, hbuf, -⟩ := (Params.wf_iff _).1 hwf
  have hcount : payload.length + 52 = t.outLen.toNat := by
    rw [← authFrame_length key payload, Memory.readBytes_length hout]
  have hoff : (u.latch.src + 8).toNat = u.latch.src.toNat + 8 := by
    rw [hsrc]
    exact BitVec.toNat_add_of_lt (show t.outOff.toNat + 8 < 2 ^ 32 by omega)
  rw [State.complete_outOff, State.complete_outLen, if_pos rfl, if_pos rfl, hoff, u32_toNat (by omega)]
  exact readBytes_payload_of_authFrame hframe

end Sys2Proof.Machine
end

section
/-! Decoder and encoder agree (30_encoding.md R76, R90). -/

namespace Sys2Proof

/-- Settles O1: the mask of each row keeps the whole word, so a row selects the one word its command encodes to. -/
theorem decodesExactlyTheEncodedWord : Obligations.DecodesExactlyTheEncodedWord :=
  fun _ _ => decodeWord_eq_ok_iff

/-- Settles O3: the ten words are those of the encoder, command by command. -/
theorem opcodeMapWordsDecode : Obligations.OpcodeMapWordsDecode :=
  ⟨decodeWord_encode .nop, decodeWord_encode .crcInit, decodeWord_encode .crcUpdate, decodeWord_encode .crc32,
    decodeWord_encode .hmac, decodeWord_encode .hmacHex, decodeWord_encode .packCsum, decodeWord_encode .unpackCsum,
    decodeWord_encode .packAuth, decodeWord_encode .unpackAuth⟩

end Sys2Proof
end

section
/-! What a perform step that completes has done, said once for every command: its completion (40_command_lifecycle.md
R100), its code (60_exceptions.md R161) and what it wrote (30_encoding.md R76). -/

namespace Sys2Proof.Machine

/-- The raised-by column of R161. -/
def reportedCodes : Instr → List Code
  | .nop | .crcInit => [.ok]
  | .crcUpdate | .crc32 => [.ok, .rangeError]
  | .hmac => [.ok, .configError, .rangeError]
  | .hmacHex | .packAuth => [.ok, .configError, .rangeError, .overlapError]
  | .packCsum => [.ok, .rangeError, .overlapError]
  | .unpackCsum => [.ok, .rangeError, .formatError, .checksumInvalid, .frameExpired]
  | .unpackAuth => [.ok, .configError, .rangeError, .formatError, .lengthMismatch, .tagLengthMismatch,
      .authenticationFailed]

/-- The commands that name CRC_STATE in the writes column of R76. -/
abbrev crcWriters : List Instr := [.crcInit, .crcUpdate, .crc32, .packCsum, .unpackCsum]

/-- The commands that name TS in the writes column of R76. -/
abbrev tsWriters : List Instr := [.packCsum, .unpackCsum]

/-- The commands that name DIGEST in the writes column of R76. -/
abbrev digestWriters : List Instr := [.hmac, .hmacHex, .packAuth, .unpackAuth]

/-- BUF `m` is that of `s` with the output range of command `i`, whose checks passed, filled (R96, R142, R152). -/
structure OutputWritten (i : Instr) (s : State) (m : Memory) : Prop where
  writes : writesDst i = true
  check : commonCheck i s = none
  buf : ∃ bs, bs.length = outputLen i s.srcLen ∧ m = s.buf.writeBytes s.dstOff bs

/-- Command `i`, performed in `s`, has completed in `t`. -/
structure Performed (i : Instr) (s t : State) : Prop where
  frame : t = { s with
    code := t.code, outOff := t.outOff, outLen := t.outLen, busy := false, done := true
    crcState := t.crcState, ts := t.ts, digest := t.digest, buf := t.buf }
  code : t.code ∈ reportedCodes i
  failure_no_output : t.code ≠ .ok → t.outOff = 0 ∧ t.outLen = 0
  output_in_buf : s.params.wf = true → t.outOff.toNat + t.outLen.toNat ≤ s.params.bufSize
  crcState : i ∉ crcWriters → t.crcState = s.crcState
  ts : i ∉ tsWriters → t.ts = s.ts
  digest : i ∉ digestWriters → t.digest = s.digest
  buf : t.buf = s.buf ∨ (t.code = .ok ∧ OutputWritten i s t.buf)

/-- Every completion has this form: the registers and BUF are set first, then R100 applies. -/
theorem performed_complete {i : Instr} {s : State} {crc ts : Word} {digest : Digest} {buf : Memory} {c : Code}
    {o n : Word} (hcode : c ∈ reportedCodes i)
    (hout : c = .ok → s.params.wf = true → o.toNat + n.toNat ≤ s.params.bufSize)
    (hcrc : i ∉ crcWriters → crc = s.crcState) (hts : i ∉ tsWriters → ts = s.ts)
    (hdigest : i ∉ digestWriters → digest = s.digest)
    (hbuf : buf = s.buf ∨ (c = .ok ∧ OutputWritten i s buf)) :
    Performed i s ({ s with crcState := crc, ts := ts, digest := digest, buf := buf }.complete c o n) where
  frame := rfl
  code := hcode
  failure_no_output hc := ⟨if_neg hc, if_neg hc⟩
  output_in_buf hwf := by
    rw [State.complete_outOff, State.complete_outLen]
    split
    next hc => exact hout hc hwf
    next => exact Nat.zero_le _
  crcState := hcrc
  ts := hts
  digest := hdigest
  buf := hbuf

/-- A command that uses the key or writes an output range reads an input (R95). -/
theorem readsSrc_of_usesKey_or_writesDst {i : Instr} : usesKey i = true ∨ writesDst i = true → readsSrc i = true := by
  cases i <;> decide

/-- Which common check can fail for which command (R95). -/
theorem commonCheck_class {i : Instr} {s : State} {c : Code} (h : commonCheck i s = some c) :
    (c = .configError ∧ usesKey i = true) ∨ (c = .rangeError ∧ readsSrc i = true) ∨
    (c = .overlapError ∧ writesDst i = true) := by
  unfold commonCheck at h
  split_ifs at h with hhash hkey hsrc hdst hoverlap <;> obtain rfl := Option.some.inj h
  · exact .inl ⟨rfl, (Bool.and_eq_true_iff.1 hhash).1⟩
  · exact .inr (.inl ⟨rfl, readsSrc_of_usesKey_or_writesDst (.inl (Bool.and_eq_true_iff.1 hkey).1)⟩)
  · exact .inr (.inl ⟨rfl, (Bool.and_eq_true_iff.1 hsrc).1⟩)
  · exact .inr (.inl ⟨rfl, readsSrc_of_usesKey_or_writesDst (.inr (Bool.and_eq_true_iff.1 hdst).1)⟩)
  · exact .inr (.inr ⟨rfl, (Bool.and_eq_true_iff.1 hoverlap).1⟩)

/-- A failing common check reports a code of the command's own row of R161. -/
theorem commonCheck_reported {i : Instr} {s : State} {c : Code} (h : commonCheck i s = some c) :
    c ∈ reportedCodes i := by
  have config : usesKey i = true → .configError ∈ reportedCodes i := by cases i <;> decide
  have range : readsSrc i = true → .rangeError ∈ reportedCodes i := by cases i <;> decide
  have overlap : writesDst i = true → .overlapError ∈ reportedCodes i := by cases i <;> decide
  rcases commonCheck_class h with ⟨rfl, hi⟩ | ⟨rfl, hi⟩ | ⟨rfl, hi⟩
  · exact config hi
  · exact range hi
  · exact overlap hi

/-- A failing common check's completion writes nothing (R101). -/
theorem performed_failedCheck {i : Instr} {s : State} {c : Code} (h : commonCheck i s = some c) :
    Performed i s (s.complete c 0 0) :=
  performed_complete (commonCheck_reported h) (fun _ _ => Nat.zero_le _) (fun _ => rfl) (fun _ => rfl) (fun _ => rfl)
    (.inl rfl)

/-- The output of an unpacking command lies in its input range (R143, R153). -/
theorem output_in_input_range {i : Instr} {s : State} (hi : readsSrc i = true) (hcheck : commonCheck i s = none)
    (hwf : s.params.wf = true) {skip : Word} {n : Nat} (hn : skip.toNat + n ≤ s.srcLen) :
    (s.latch.src + skip).toNat + (u32 n).toNat ≤ s.params.bufSize := by
  obtain ⟨-, -, hbuf, -⟩ := (Params.wf_iff _).1 hwf
  obtain ⟨-, hsrc, -⟩ := commonCheck_none_iff.1 hcheck
  have hrange : s.srcOff + s.srcLen ≤ s.params.bufSize := hsrc hi
  have hoff : (s.latch.src + skip).toNat = s.srcOff + skip.toNat :=
    BitVec.toNat_add_of_lt (show s.srcOff + skip.toNat < 2 ^ 32 by omega)
  rw [hoff, u32_toNat (by omega)]
  omega

/-- The output of a packing command is its checked output range (R95, R96). -/
theorem output_in_output_range {i : Instr} {s : State} (hi : writesDst i = true) (hcheck : commonCheck i s = none)
    (hwf : s.params.wf = true) :
    s.latch.dst.toNat + (u32 (outputLen i s.srcLen)).toNat ≤ s.params.bufSize := by
  obtain ⟨-, -, hdst⟩ := commonCheck_none_iff.1 hcheck
  rw [outputLen_toNat hwf hi hcheck]
  exact (hdst hi).1

section
variable {s t : State}

theorem performed_nop (h : exec .nop s = .next t) : Performed .nop s t := by
  obtain rfl := execNop_next h
  exact performed_complete (by decide) (fun _ _ => Nat.zero_le _) (fun _ => rfl) (fun _ => rfl) (fun _ => rfl)
    (.inl rfl)

theorem performed_crcInit (h : exec .crcInit s = .next t) : Performed .crcInit s t := by
  obtain rfl := execCrcInit_next h
  exact performed_complete (by decide) (fun _ _ => Nat.zero_le _) (absurd (by decide)) (fun _ => rfl) (fun _ => rfl)
    (.inl rfl)

theorem performed_crcUpdate (h : exec .crcUpdate s = .next t) : Performed .crcUpdate s t := by
  rcases execCrcUpdate_next h with ⟨c, hc, rfl⟩ | ⟨-, bs, -, rfl⟩
  · exact performed_failedCheck hc
  · exact performed_complete (by decide) (fun _ _ => Nat.zero_le _) (absurd (by decide)) (fun _ => rfl)
      (fun _ => rfl) (.inl rfl)

theorem performed_crc32 (h : exec .crc32 s = .next t) : Performed .crc32 s t := by
  rcases execCrc32_next h with ⟨c, hc, rfl⟩ | ⟨-, bs, -, rfl⟩
  · exact performed_failedCheck hc
  · exact performed_complete (by decide) (fun _ _ => Nat.zero_le _) (absurd (by decide)) (fun _ => rfl)
      (fun _ => rfl) (.inl rfl)

theorem performed_hmac (h : exec .hmac s = .next t) : Performed .hmac s t := by
  rcases execHmac_next h with ⟨c, hc, rfl⟩ | ⟨-, bs, k, -, -, rfl⟩
  · exact performed_failedCheck hc
  · exact performed_complete (by decide) (fun _ _ => Nat.zero_le _) (fun _ => rfl) (fun _ => rfl)
      (absurd (by decide)) (.inl rfl)

theorem performed_hmacHex (h : exec .hmacHex s = .next t) : Performed .hmacHex s t := by
  rcases execHmacHex_next h with ⟨c, hc, rfl⟩ | ⟨hcheck, bs, k, -, -, rfl⟩
  · exact performed_failedCheck hc
  · exact performed_complete (by decide) (fun _ => output_in_output_range (i := .hmacHex) rfl hcheck) (fun _ => rfl)
      (fun _ => rfl) (absurd (by decide)) (.inr ⟨rfl, rfl, hcheck, _, tagText_length _, rfl⟩)

theorem performed_packCsum (h : exec .packCsum s = .next t) : Performed .packCsum s t := by
  rcases execPackCsum_next h with ⟨c, hc, rfl⟩ | ⟨hcheck, bs, hbs, rfl⟩
  · exact performed_failedCheck hc
  · have hlen : (csumBody bs s.latch.now).length = outputLen .packCsum s.srcLen := by
      rw [csumBody_length, Memory.readBytes_length hbs, outputLen]
    exact performed_complete (by decide) (fun _ => output_in_output_range (i := .packCsum) rfl hcheck)
      (absurd (by decide)) (absurd (by decide)) (fun _ => rfl) (.inr ⟨rfl, rfl, hcheck, _, hlen, rfl⟩)

theorem performed_unpackCsum (h : exec .unpackCsum s = .next t) : Performed .unpackCsum s t := by
  rcases execUnpackCsum_next h with ⟨c, hc, rfl⟩ | ⟨hcheck, bs, -, hrun⟩
  · exact performed_failedCheck hc
  rcases hrun with rfl | ⟨n, crc, ts, code, hn, hcode, rfl⟩
  · exact performed_complete (by decide) (fun _ _ => Nat.zero_le _) (fun _ => rfl) (fun _ => rfl) (fun _ => rfl)
      (.inl rfl)
  · have hreported : ∀ c ∈ [Code.ok, .checksumInvalid, .frameExpired], c ∈ reportedCodes .unpackCsum := by decide
    have hin : (4 : Word).toNat + n ≤ s.srcLen := by
      rw [show (4 : Word).toNat = 4 from rfl]
      omega
    exact performed_complete (hreported code hcode) (fun _ hwf => output_in_input_range rfl hcheck hwf hin)
      (absurd (by decide)) (absurd (by decide)) (fun _ => rfl) (.inl rfl)

theorem performed_packAuth (h : exec .packAuth s = .next t) : Performed .packAuth s t := by
  rcases execPackAuth_next h with ⟨c, hc, rfl⟩ | ⟨hcheck, bs, k, hbs, -, rfl⟩
  · exact performed_failedCheck hc
  · have hlen : (authFrame bs (authTag k bs)).length = outputLen .packAuth s.srcLen := by
      rw [authFrame_length, Memory.readBytes_length hbs, outputLen]
    exact performed_complete (by decide) (fun _ => output_in_output_range (i := .packAuth) rfl hcheck) (fun _ => rfl)
      (fun _ => rfl) (absurd (by decide)) (.inr ⟨rfl, rfl, hcheck, _, hlen, rfl⟩)

theorem performed_unpackAuth (h : exec .unpackAuth s = .next t) : Performed .unpackAuth s t := by
  rcases execUnpackAuth_next h with ⟨c, hc, rfl⟩ | ⟨hcheck, bs, -, hrun⟩
  · exact performed_failedCheck hc
  rcases hrun with ⟨c, hcode, rfl⟩ | ⟨payload, k, code, hlen, -, hcode, rfl⟩
  · have hreported : ∀ c ∈ [Code.formatError, .lengthMismatch, .tagLengthMismatch],
        c ∈ reportedCodes .unpackAuth := by decide
    exact performed_complete (hreported c hcode) (fun _ _ => Nat.zero_le _) (fun _ => rfl) (fun _ => rfl)
      (fun _ => rfl) (.inl rfl)
  · have hreported : ∀ c ∈ [Code.ok, .authenticationFailed], c ∈ reportedCodes .unpackAuth := by decide
    have hin : (8 : Word).toNat + payload.length ≤ s.srcLen := by
      rw [show (8 : Word).toNat = 8 from rfl]
      omega
    exact performed_complete (hreported code hcode) (fun _ hwf => output_in_input_range rfl hcheck hwf hin)
      (fun _ => rfl) (fun _ => rfl) (absurd (by decide)) (.inl rfl)

theorem performed_of_exec {i : Instr} (h : exec i s = .next t) : Performed i s t := by
  cases i with
  | nop => exact performed_nop h
  | crcInit => exact performed_crcInit h
  | crcUpdate => exact performed_crcUpdate h
  | crc32 => exact performed_crc32 h
  | hmac => exact performed_hmac h
  | hmacHex => exact performed_hmacHex h
  | packCsum => exact performed_packCsum h
  | unpackCsum => exact performed_unpackCsum h
  | packAuth => exact performed_packAuth h
  | unpackAuth => exact performed_unpackAuth h

end

namespace Performed

variable {i : Instr} {s t : State}

theorem busy (h : Performed i s t) : t.busy = false := by rw [h.frame]

theorem done (h : Performed i s t) : t.done = true := by rw [h.frame]

theorem params (h : Performed i s t) : t.params = s.params := by rw [h.frame]

theorem key (h : Performed i s t) : t.key = s.key := by rw [h.frame]

theorem keyLen (h : Performed i s t) : t.keyLen = s.keyLen := by rw [h.frame]

theorem keyLock (h : Performed i s t) : t.keyLock = s.keyLock := by rw [h.frame]

theorem inputs (h : Performed i s t) : t.inputs = s.inputs := by rw [h.frame]

/-- Outside the output range BUF reads as before (R76). -/
theorem read_outside (h : Performed i s t) {a : Nat}
    (ha : a < s.dstOff ∨ s.dstOff + outputLen i s.srcLen ≤ a) : t.buf.read a = s.buf.read a := by
  rcases h.buf with hsame | ⟨-, -, -, bs, hlen, hbuf⟩
  · rw [hsame]
  · rw [hbuf]
    exact Memory.read_writeBytes_outside (hlen ▸ ha)

/-- R100 at the end of a perform step. -/
theorem irq_eq_ie (h : Performed i s t) : t.irq = s.ie := by
  rw [h.frame, State.irq, Bool.and_true]

end Performed

/-- Settles O13: a command ends in `Performed`, an illegal word in the completion with IllegalCommand. -/
theorem everyPerformCompletes : Obligations.EveryPerformCompletes := by
  unfold Obligations.EveryPerformCompletes
  intro completes
  have command (i : Instr) (s t : State) (h : exec i s = .next t) : completes s t := by
    have hp := performed_of_exec h
    exact ⟨hp.busy, hp.done, hp.irq_eq_ie, hp.failure_no_output, hp.frame⟩
  refine ⟨command, fun s t hbusy h => ?_⟩
  rcases perform_next h with ⟨hidle, -⟩ | ⟨-, i, -, hexec⟩ | ⟨-, -, rfl⟩
  · exact absurd hbusy (by rw [hidle]; exact Bool.false_ne_true)
  · exact command i s t hexec
  · exact ⟨rfl, rfl, Bool.and_true s.ie, fun _ => ⟨rfl, rfl⟩, rfl⟩

/-- Settles O14: the writes of every command, read off `Performed`. -/
theorem commandsWriteOnlyWhatTheyName : Obligations.CommandsWriteOnlyWhatTheyName := by
  intro i s t h
  have hp := performed_of_exec h
  refine ⟨hp.crcState, hp.ts, hp.digest, fun hno => ?_, fun a ha => hp.read_outside ha⟩
  rcases hp.buf with hsame | ⟨hok, hwritten⟩
  · exact hsame
  · rcases hno with hnot | hfail
    · exact absurd ((writesDst_iff_mem i).1 hwritten.writes) hnot
    · exact absurd hok hfail

/-- Settles O15: `reportedCodes` is the table of the statement. -/
theorem codesEachCommandReports : Obligations.CodesEachCommandReports := by
  intro i s t h
  have hcode := (performed_of_exec h).code
  cases i <;> exact hcode

end Sys2Proof.Machine
end

section
/-! One step, event by event (40_command_lifecycle.md R91, R94), and a host access by its place in the register space
(20_memory.md R46, R75). -/

namespace Sys2Proof.Machine

section
variable {s : State} {rest : List Event}

theorem step_of_noInputs (h : s.inputs = []) : step s = perform s := by
  rw [step, h]

theorem step_of_engineTurn (h : s.inputs = .engineTurn :: rest) : step s = perform { s with inputs := rest } := by
  rw [step, h]

theorem step_of_write {addr width : Nat} {d : Word} (h : s.inputs = .write addr width d :: rest) :
    step s = .next ({ s with inputs := rest }.hostWrite addr width d) := by
  rw [step, h]

theorem step_of_read {addr width : Nat} (h : s.inputs = .read addr width :: rest) :
    step s = .next ({ s with inputs := rest }.hostRead addr width) := by
  rw [step, h]

theorem step_of_assertReset (h : s.inputs = .assertReset :: rest) :
    step s = .next { s with inputs := rest }.hardwareReset := by
  rw [step, h]

theorem step_of_releaseReset (h : s.inputs = .releaseReset :: rest) :
    step s = .next { s with inputs := rest, resetLine := false } := by
  rw [step, h]

end

/-- The register space is the 64 KiB from BASE on (R46). -/
theorem offsetOf_eq_some_iff {p : Params} {addr off : Nat} :
    Params.offsetOf p addr = some off ↔ addr = p.base + off ∧ off < 0x10000 := by
  rw [Params.offsetOf]
  split
  · rw [Option.some.injEq]
    omega
  · refine iff_of_false nofun ?_
    omega

theorem offsetOf_eq_none_iff {p : Params} {addr : Nat} :
    Params.offsetOf p addr = none ↔ addr < p.base ∨ p.base + 0x10000 ≤ addr := by
  rw [Params.offsetOf]
  split
  · refine iff_of_false nofun ?_
    omega
  · refine iff_of_true rfl ?_
    omega

section
variable {s : State} {addr off width : Nat}

theorem hostWrite_of_notSelected (h : Params.offsetOf s.params addr = none) (d : Word) :
    s.hostWrite addr width d = { s with resp := .notSelected } := by
  rw [State.hostWrite, h]

theorem hostRead_of_notSelected (h : Params.offsetOf s.params addr = none) :
    s.hostRead addr width = { s with resp := .notSelected } := by
  rw [State.hostRead, h]

theorem hostWrite_of_released (h : Params.offsetOf s.params addr = some off) (hr : s.resetLine = false) (d : Word) :
    s.hostWrite addr width d = s.busWrite off width d := by
  rw [State.hostWrite, h, hr]
  exact if_neg Bool.false_ne_true

theorem hostRead_of_released (h : Params.offsetOf s.params addr = some off) (hr : s.resetLine = false) :
    s.hostRead addr width = s.busRead off width := by
  rw [State.hostRead, h, hr]
  exact if_neg Bool.false_ne_true

theorem hostWrite_of_reset (h : Params.offsetOf s.params addr = some off) (hr : s.resetLine = true) (d : Word) :
    s.hostWrite addr width d = { s with resp := .written } := by
  rw [State.hostWrite, h, hr]
  exact if_pos rfl

theorem hostRead_of_reset (h : Params.offsetOf s.params addr = some off) (hr : s.resetLine = true) :
    s.hostRead addr width = s.answerFree := by
  rw [State.hostRead, h, hr]
  exact if_pos rfl

end

/-- Settles O4. -/
theorem stepRunsDecodedCommand : Obligations.StepRunsDecodedCommand := by
  intro s i hbusy hdecode
  refine ⟨fun rest h => ?_, fun h => ?_⟩
  · rw [step_of_engineTurn h]
    exact perform_of_ok hbusy hdecode
  · rw [step_of_noInputs h, perform_of_ok hbusy hdecode]

/-- Settles O5. -/
theorem idleEngineDoesNothing : Obligations.IdleEngineDoesNothing := by
  intro s hidle
  refine ⟨fun rest h => ?_, fun h => ?_⟩
  · rw [step_of_engineTurn h]
    exact perform_of_idle hidle
  · rw [step_of_noInputs h, perform_of_idle hidle]

/-- Settles O6: the address decides whether the access is the FIE's, and its distance from BASE where it leads. -/
theorem stepPerformsHostAccess : Obligations.StepPerformsHostAccess := by
  intro s off width d rest
  refine ⟨fun hoff hreleased => ?inside, fun addr houtside h => ?outside⟩
  case inside =>
    have hsome : Params.offsetOf s.params (s.params.base + off) = some off := offsetOf_eq_some_iff.2 ⟨rfl, hoff⟩
    exact ⟨
      fun h => (step_of_write h).trans
        (congrArg Host.Outcome.next (hostWrite_of_released (s := { s with inputs := rest }) hsome hreleased d)),
      fun h => (step_of_read h).trans
        (congrArg Host.Outcome.next (hostRead_of_released (s := { s with inputs := rest }) hsome hreleased))⟩
  case outside =>
    have hnone : Params.offsetOf s.params addr = none := offsetOf_eq_none_iff.2 houtside
    rcases h with h | h
    · exact (step_of_write h).trans
        (congrArg Host.Outcome.next (hostWrite_of_notSelected (s := { s with inputs := rest }) hnone d))
    · exact (step_of_read h).trans
        (congrArg Host.Outcome.next (hostRead_of_notSelected (s := { s with inputs := rest }) hnone))

/-- A word the table decodes is a command of the low `nbits` bits. -/
theorem decodeWord_of_decodeTableWord {nbits w : Nat} {i : Instr} (h : decodeTableWord nbits w = some i) :
    decodeWord (BitVec.ofNat 32 (w % 2 ^ nbits)) = .ok i := by
  unfold decodeTableWord at h
  split at h
  · split at h
    next j hj => rw [hj, Option.some.inj h]
    next => cases h
  · cases h

/-- Settles O7: the accept latches the word, and the engine's turn is the first event. -/
theorem fetchWordRunsOnTheNextStep : Obligations.FetchWordRunsOnTheNextStep := by
  intro s nbits w i h
  have hword : (s.accept (BitVec.ofNat 32 (w % 2 ^ nbits))).commandWord = BitVec.ofNat 32 (w % 2 ^ nbits) :=
    commandWord_accept ..
  rw [step_of_engineTurn (rest := s.inputs) rfl]
  refine perform_of_ok rfl ?_
  rw [← decodeWord_of_decodeTableWord h, ← hword]
  exact congrArg decodeWord (commandWord_congr rfl)

/-- Settles O52: under reset neither the width nor the offset is looked at. -/
theorem accessUnderResetHasNoEffect : Obligations.AccessUnderResetHasNoEffect := by
  intro s addr width d rest
  refine ⟨fun hreset hlow hhigh => ?_, step_of_releaseReset⟩
  obtain ⟨off, rfl⟩ := Nat.exists_eq_add_of_le hlow
  have hsome : Params.offsetOf s.params (s.params.base + off) = some off := offsetOf_eq_some_iff.2 ⟨rfl, by omega⟩
  exact ⟨hostWrite_of_reset hsome hreset d, hostRead_of_reset hsome hreset,
    fun h => (step_of_write h).trans
      (congrArg Host.Outcome.next (hostWrite_of_reset (s := { s with inputs := rest }) hsome hreset d)),
    fun h => (step_of_read h).trans
      (congrArg Host.Outcome.next (hostRead_of_reset (s := { s with inputs := rest }) hsome hreset))⟩

end Sys2Proof.Machine
end

section
/-! What a host access can do, by the place it reaches (20_memory.md R75), and the resets (70_reset_and_hazards.md
R181 to R183). -/

namespace Sys2Proof.Machine

/-- A read changes the response and the count of free values only (R57). -/
theorem busRead_eq (s : State) (off width : Nat) :
    ∃ r n, s.busRead off width = { s with resp := r, draws := n } := by
  unfold State.busRead
  split
  · split
    · split <;> exact ⟨_, _, rfl⟩
    · exact ⟨_, _, rfl⟩
    · split <;> exact ⟨_, _, rfl⟩
    · exact ⟨_, _, rfl⟩
  · exact ⟨_, _, rfl⟩

theorem hostRead_eq (s : State) (addr width : Nat) :
    ∃ r n, s.hostRead addr width = { s with resp := r, draws := n } := by
  unfold State.hostRead
  split
  · exact ⟨_, _, rfl⟩
  · split
    · exact ⟨_, _, rfl⟩
    · exact busRead_eq ..

/-- The place a write reaches: none, a register, a word of KEY or a word of BUF. -/
theorem busWrite_cases (s : State) (off width : Nat) (d : Word) :
    (∃ r, s.busWrite off width d = { s with resp := r }) ∨
    (width = 32 ∧ ∃ r, regAt off = some r ∧ s.busWrite off width d = { s.writeReg r d with resp := .written }) ∨
    (∃ k, off % 4 = 0 ∧ target s.params off = .keyWord k ∧
      s.busWrite off width d = { s.writeKeyWord k d with resp := .written }) ∨
    (∃ k, off % 4 = 0 ∧ target s.params off = .bufWord k ∧
      s.busWrite off width d = { s.writeBufWord k d with resp := .written }) := by
  cases hfit : accessOk width off with
  | false => exact .inl ⟨_, busWrite_misfit s hfit d⟩
  | true =>
    obtain ⟨rfl, hoff⟩ := accessOk_iff.1 hfit
    cases htarget : target s.params off with
    | reserved => exact .inl ⟨_, busWrite_reserved hoff htarget d⟩
    | keyWord k => exact .inr (.inr (.inl ⟨k, hoff, rfl, busWrite_keyWord hoff htarget d⟩))
    | bufWord k => exact .inr (.inr (.inr ⟨k, hoff, rfl, busWrite_bufWord hoff htarget d⟩))
    | reg r =>
      have hreg : regAt off = some r := by
        unfold target at htarget
        split at htarget
        next r' h => rw [h, Target.reg.inj htarget]
        next => split_ifs at htarget
      exact .inr (.inl ⟨rfl, r, hreg, busWrite_reg hfit hreg d⟩)

/-- A write that is not the FIE's, or is made under reset, changes the response only; any other is a bus write. -/
theorem hostWrite_cases (s : State) (addr width : Nat) (d : Word) :
    (∃ r, s.hostWrite addr width d = { s with resp := r }) ∨
    (s.resetLine = false ∧ ∃ off, addr = s.params.base + off ∧
      s.hostWrite addr width d = s.busWrite off width d) := by
  cases hoff : Params.offsetOf s.params addr with
  | none => exact .inl ⟨_, hostWrite_of_notSelected hoff d⟩
  | some off =>
    by_cases hreset : s.resetLine = true
    · exact .inl ⟨_, hostWrite_of_reset hoff hreset d⟩
    · have hreleased := Bool.eq_false_of_not_eq_true hreset
      exact .inr ⟨hreleased, off, (offsetOf_eq_some_iff.1 hoff).1, hostWrite_of_released hoff hreleased d⟩

/-- The four bytes of a word of the KEY window lie in KEY (R51). -/
theorem keyWord_in_key {p : Params} {off k : Nat} (hp : p.wf = true) (hoff : off % 4 = 0)
    (h : target p off = .keyWord k) : 4 * k + 4 ≤ p.keySize := by
  obtain ⟨-, -, -, hkey, -⟩ := (Params.wf_iff p).1 hp
  unfold target at h
  split at h
  · cases h
  · split_ifs at h with hin hin'
    · obtain rfl := Target.keyWord.inj h
      rw [Bool.and_eq_true, decide_eq_true_eq, decide_eq_true_eq] at hin
      omega

/-- The four bytes of a word of the BUF window lie in BUF (R50). -/
theorem bufWord_in_buf {p : Params} {off k : Nat} (hp : p.wf = true) (hoff : off % 4 = 0)
    (h : target p off = .bufWord k) : 4 * k + 4 ≤ p.bufSize := by
  obtain ⟨hbuf, -⟩ := (Params.wf_iff p).1 hp
  unfold target at h
  split at h
  · cases h
  · split_ifs at h with hin hin'
    · obtain rfl := Target.bufWord.inj h
      rw [Bool.and_eq_true, decide_eq_true_eq, decide_eq_true_eq] at hin'
      omega

theorem writeCtrl_of_srst {d : Word} (s : State) (h : d.getLsbD 31 = true) : s.writeCtrl d = s.softReset := by
  rw [State.writeCtrl, if_pos h]

theorem softReset_of_idle {s : State} (h : s.busy = false) : s.softReset = s.clearRegisters := by
  rw [State.softReset, h, if_neg Bool.false_ne_true]

theorem softReset_of_busy {s : State} (h : s.busy = true) : s.softReset = s.abandon.clearRegisters := by
  rw [State.softReset, if_pos h]

/-- A soft reset is the clearing of the registers, before which a command in flight may have filled BUF (R183). -/
theorem softReset_eq (s : State) : ∃ m n, s.softReset = { s with buf := m, draws := n }.clearRegisters := by
  by_cases hbusy : s.busy = true
  · rw [softReset_of_busy hbusy]
    rcases abandon_cases s with h | ⟨i, -, -, -, h⟩
    · exact ⟨s.buf, s.draws, by rw [h]⟩
    · exact ⟨_, _, by rw [h]⟩
  · exact ⟨s.buf, s.draws, softReset_of_idle (Bool.eq_false_of_not_eq_true hbusy)⟩

/-- The soft reset values are the hardware ones (R45, R182). -/
theorem clearRegisters_eq_reset (s : State) : s.clearRegisters =
    { State.reset with
      keyLock := s.keyLock, keyLen := s.keyLen, key := s.key, buf := s.buf, params := s.params
      resetLine := s.resetLine, inputs := s.inputs, resp := s.resp, draws := s.draws } := rfl

/-- Settles O53. -/
theorem softResetWhileIdle : Obligations.SoftResetWhileIdle := by
  intro s d hsrst hidle
  rw [busWrite_ctrl, writeCtrl_of_srst s hsrst, softReset_of_idle hidle, clearRegisters_eq_reset]

/-- A byte that abandoning the command in flight may change lies in the output range of a command that writes one and
whose checks pass (R183). -/
theorem abandon_read {s : State} {a : Nat}
    (ha : ¬ ∃ i, decodeWord s.commandWord = .ok i ∧ i ∈ ([.hmacHex, .packCsum, .packAuth] : List Instr) ∧
      ChecksPass i s ∧ s.latch.dst.toNat ≤ a ∧ a < s.latch.dst.toNat + outputLen i s.latch.len.toNat) :
    s.abandon.buf.read a = s.buf.read a := by
  rcases abandon_cases s with h | ⟨i, hi, hwrites, hcheck, h⟩
  · rw [h]
  · rw [h]
    refine Memory.read_writeBytes_outside ?_
    rw [freeBytes_length]
    by_contra hin
    exact ha ⟨i, hi, (writesDst_iff_mem i).1 hwrites, (commonCheck_eq_none_iff_checksPass i s).1 hcheck,
      Nat.le_of_not_lt fun hlow => hin (.inl hlow), Nat.lt_of_not_le fun hhigh => hin (.inr hhigh)⟩

/-- Settles O54: the command is abandoned, then the registers are cleared. -/
theorem softResetAbandonsCommand : Obligations.SoftResetAbandonsCommand := by
  intro s d hsrst hbusy
  have hreset : s.busWrite 0x004 32 d = { s.abandon.clearRegisters with resp := .written } := by
    rw [busWrite_ctrl, writeCtrl_of_srst s hsrst, softReset_of_busy hbusy]
  refine ⟨_, hreset, ?registers, fun a ha => abandon_read ha⟩
  case registers =>
    rw [clearRegisters_eq_reset]
    rcases abandon_cases s with h | ⟨i, -, -, -, h⟩ <;> rw [h]

theorem statusWord_of_clear {s : State} (hbusy : s.busy = false) (hdone : s.done = false) (hbusyWr : s.busyWr = false)
    (hlockWr : s.lockWr = false) (hcode : s.code = .ok) : s.statusWord = 0 := by
  rw [State.statusWord, hbusy, hdone, hbusyWr, hlockWr, hcode]
  rfl

theorem ctrlWord_of_clear {s : State} (hie : s.ie = false) (hlock : s.keyLock = false) (hhash : s.hashSel = 0) :
    s.ctrlWord = 0 := by
  rw [State.ctrlWord, hie, hlock, hhash]
  rfl

/-- Settles O51: everything but the parameters, the events, the response and the count of draws takes the value of
State.reset. -/
theorem hardwareResetValues : Obligations.HardwareResetValues := by
  intro s rest h
  refine ⟨_, step_of_assertReset h, ?_, rfl, rfl, rfl, rfl⟩
  rintro u (rfl | rfl)
  all_goals exact ⟨rfl, rfl, rfl, rfl, rfl, rfl, rfl, rfl, statusWord_of_clear rfl rfl rfl rfl rfl,
    ctrlWord_of_clear rfl rfl rfl, rfl, rfl, rfl, rfl, rfl, rfl, rfl, rfl, rfl, rfl, rfl, rfl, fun _ => ⟨rfl, rfl⟩⟩

end Sys2Proof.Machine
end

section
/-! The invariant, kept by every step (10_state.md R40 to R45, 40_command_lifecycle.md R92 to R100). -/

namespace Sys2Proof.Machine

/-- A range write inside the bound keeps the bound. -/
theorem Memory.bound_writeBytes {m : Memory} {bound off : Nat} {bs : List Byte} (h : ∀ c ∈ m, c.1 < bound)
    (hfits : off + bs.length ≤ bound) : ∀ c ∈ m.writeBytes off bs, c.1 < bound := by
  intro c hc
  rcases Memory.mem_writeBytes hc with ⟨-, hlt⟩ | hold
  · exact hlt.trans_le hfits
  · exact h c hold

namespace State.Inv

variable {s t : State}

theorem with_inputs (h : s.Inv) (rest : List Event) : { s with inputs := rest }.Inv := { h with }

/-- The response and the count of draws are the model's own (notes/assumptions/6.md, 7.md). -/
theorem with_response (h : s.Inv) (r : Response) (n : Nat) : { s with resp := r, draws := n }.Inv := { h with }

theorem with_releasedReset (h : s.Inv) : { s with resetLine := false }.Inv := { h with reset_not_busy := nofun }

/-- BUF written inside its size. -/
theorem with_buf (h : s.Inv) {off : Nat} {bs : List Byte} (hfits : off + bs.length ≤ s.params.bufSize) :
    { s with buf := s.buf.writeBytes off bs }.Inv :=
  { h with
    buf_wf := Memory.writeBytes_wf off bs h.buf_wf
    buf_bound := Memory.bound_writeBytes h.buf_bound hfits }

/-- KEY written inside its size. -/
theorem with_key (h : s.Inv) {off : Nat} {bs : List Byte} (hfits : off + bs.length ≤ s.params.keySize) :
    { s with key := s.key.writeBytes off bs }.Inv :=
  { h with
    key_wf := Memory.writeBytes_wf off bs h.key_wf
    key_bound := Memory.bound_writeBytes h.key_bound hfits }

/-- No command is accepted under reset, and DONE falls with the accept (R92, R181). -/
theorem accept (h : s.Inv) (hreleased : s.resetLine = false) (w : Word) : (s.accept w).Inv :=
  { h with
    busy_not_done := fun _ => rfl
    reset_not_busy := fun hreset => absurd (hreset.symm.trans hreleased) (by decide) }

theorem writeStatus (h : s.Inv) (d : Word) : (s.writeStatus d).Inv :=
  { h with
    busy_not_done := fun hbusy => by rw [writeStatus_done, h.busy_not_done hbusy, Bool.false_and] }

theorem clearRegisters (h : s.Inv) : s.clearRegisters.Inv :=
  { h with
    busy_not_done := fun _ => rfl
    reset_not_busy := fun _ => rfl
    failure_no_output := fun _ => ⟨rfl, rfl⟩
    output_in_buf := Nat.zero_le _ }

theorem hardwareReset (h : s.Inv) : s.hardwareReset.Inv where
  params_wf := h.params_wf
  buf_wf := .nil
  key_wf := .nil
  buf_bound := nofun
  key_bound := nofun
  busy_not_done := nofun
  reset_not_busy _ := rfl
  failure_no_output _ := ⟨rfl, rfl⟩
  output_in_buf := Nat.zero_le _

/-- An abandoned command's output range, which the free bytes fill, passed the check of R96. -/
theorem abandon (h : s.Inv) : s.abandon.Inv := by
  rcases abandon_cases s with heq | ⟨i, -, hwrites, hcheck, heq⟩
  · rw [heq]
    exact h
  · rw [heq]
    obtain ⟨-, -, hdst⟩ := commonCheck_none_iff.1 hcheck
    have hfits : s.dstOff + (freeBytes s.draws (outputLen i s.srcLen)).length ≤ s.params.bufSize := by
      rw [freeBytes_length]
      exact (hdst hwrites).1
    exact { h.with_buf hfits with }

theorem softReset (h : s.Inv) : s.softReset.Inv := by
  rw [State.softReset]
  split
  · exact h.abandon.clearRegisters
  · exact h.clearRegisters

theorem writeCtrl (h : s.Inv) (d : Word) : (s.writeCtrl d).Inv := by
  rw [State.writeCtrl]
  split
  · exact h.softReset
  · exact { h with }

theorem writeCmd (h : s.Inv) (hreleased : s.resetLine = false) (d : Word) : (s.writeCmd d).Inv := by
  rw [State.writeCmd]
  split
  · exact { h with }
  · exact h.accept hreleased d

theorem writeReg (h : s.Inv) (hreleased : s.resetLine = false) (r : Reg) (d : Word) : (s.writeReg r d).Inv := by
  cases r with
  | ctrl => exact h.writeCtrl d
  | status => exact h.writeStatus d
  | cmd => exact h.writeCmd hreleased d
  | src | len | dst | now => exact { h with }
  | keyLen =>
    rw [State.writeReg, State.writeKeyLen]
    split <;> exact { h with }
  | crcState =>
    rw [State.writeReg, State.writeCrcState]
    split <;> exact { h with }
  | id | outOff | outLen | ts | crcResult | digest0 | digest1 | digest2 | digest3 | digest4 => exact h

theorem writeKeyWord (h : s.Inv) {k : Nat} (hk : 4 * k + 4 ≤ s.params.keySize) (d : Word) :
    (s.writeKeyWord k d).Inv := by
  rw [State.writeKeyWord]
  split
  · exact { h with }
  · exact h.with_key hk

theorem writeBufWord (h : s.Inv) {k : Nat} (hk : 4 * k + 4 ≤ s.params.bufSize) (d : Word) :
    (s.writeBufWord k d).Inv := by
  rw [State.writeBufWord]
  split
  · exact { h with }
  · exact h.with_buf hk

theorem busWrite (h : s.Inv) (hreleased : s.resetLine = false) (off width : Nat) (d : Word) :
    (s.busWrite off width d).Inv := by
  rcases busWrite_cases s off width d with ⟨r, heq⟩ | ⟨-, r, -, heq⟩ | ⟨k, hoff, hk, heq⟩ | ⟨k, hoff, hk, heq⟩
  · rw [heq]
    exact h.with_response r _
  · rw [heq]
    exact (h.writeReg hreleased r d).with_response _ _
  · rw [heq]
    exact (h.writeKeyWord (keyWord_in_key h.params_wf hoff hk) d).with_response _ _
  · rw [heq]
    exact (h.writeBufWord (bufWord_in_buf h.params_wf hoff hk) d).with_response _ _

theorem hostWrite (h : s.Inv) (addr width : Nat) (d : Word) : (s.hostWrite addr width d).Inv := by
  rcases hostWrite_cases s addr width d with ⟨r, heq⟩ | ⟨hreleased, off, -, heq⟩
  · rw [heq]
    exact h.with_response r _
  · rw [heq]
    exact h.busWrite hreleased off width d

theorem hostRead (h : s.Inv) (addr width : Nat) : (s.hostRead addr width).Inv := by
  obtain ⟨r, n, heq⟩ := hostRead_eq s addr width
  rw [heq]
  exact h.with_response r n

/-- A completion clears BUSY, and its output is empty or was checked. -/
theorem performed (h : s.Inv) {i : Instr} (hp : Performed i s t) : t.Inv := by
  have hbuf : t.buf.wf ∧ ∀ c ∈ t.buf, c.1 < s.params.bufSize := by
    rcases hp.buf with hsame | ⟨-, hwrites, hcheck, bs, hlen, hwritten⟩
    · rw [hsame]
      exact ⟨h.buf_wf, h.buf_bound⟩
    · obtain ⟨-, -, hdst⟩ := commonCheck_none_iff.1 hcheck
      rw [hwritten]
      exact ⟨Memory.writeBytes_wf _ bs h.buf_wf,
        Memory.bound_writeBytes h.buf_bound (hlen ▸ (hdst hwrites).1)⟩
  exact {
    params_wf := hp.params ▸ h.params_wf
    buf_wf := hbuf.1
    key_wf := hp.key ▸ h.key_wf
    buf_bound := hp.params ▸ hbuf.2
    key_bound := hp.params ▸ hp.key ▸ h.key_bound
    busy_not_done := fun hbusy => absurd (hbusy.symm.trans hp.busy) (by decide)
    reset_not_busy := fun _ => hp.busy
    failure_no_output := hp.failure_no_output
    output_in_buf := hp.params ▸ hp.output_in_buf h.params_wf }

/-- A failed command's completion, as that of an illegal word (R77, R100). -/
theorem complete_failure (h : s.Inv) {c : Code} (hc : c ≠ .ok) : (s.complete c 0 0).Inv := by
  rw [complete_of_ne_ok hc]
  exact { h with
    busy_not_done := nofun
    reset_not_busy := fun _ => rfl
    failure_no_output := fun _ => ⟨rfl, rfl⟩
    output_in_buf := Nat.zero_le _ }

theorem perform (h : s.Inv) (hrun : Machine.perform s = .next t) : t.Inv := by
  rcases perform_next hrun with ⟨-, rfl⟩ | ⟨-, i, -, hexec⟩ | ⟨-, -, rfl⟩
  · exact h
  · exact h.performed (performed_of_exec hexec)
  · exact h.complete_failure (by decide)

end State.Inv

/-- Settles O56: each event keeps the invariant. -/
theorem invariantIsKept : Obligations.InvariantIsKept := by
  intro s t hinv h
  rcases step_next h with ⟨-, hrun⟩ | ⟨addr, width, d, rest, -, rfl⟩ | ⟨addr, width, rest, -, rfl⟩ |
    ⟨rest, -, hrun⟩ | ⟨rest, -, rfl⟩ | ⟨rest, -, rfl⟩
  · exact hinv.perform hrun
  · exact (hinv.with_inputs rest).hostWrite addr width d
  · exact (hinv.with_inputs rest).hostRead addr width
  · exact (hinv.with_inputs rest).perform hrun
  · exact (hinv.with_inputs rest).hardwareReset
  · exact (hinv.with_inputs rest).with_releasedReset

/-- Settles O55. -/
theorem invariantAtReset : Obligations.InvariantAtReset where
  params_wf := by decide
  buf_wf := .nil
  key_wf := .nil
  buf_bound := nofun
  key_bound := nofun
  busy_not_done := nofun
  reset_not_busy := nofun
  failure_no_output _ := ⟨rfl, rfl⟩
  output_in_buf := Nat.zero_le _

end Sys2Proof.Machine
end

section
/-! KEYLOCK over whole runs (10_state.md R23, R34; 20_memory.md R54; 70_reset_and_hazards.md R182). -/

namespace Sys2Proof.Machine

/-- KEYLOCK is set in `t`, and the key and its length are those of `s`; the events to come too. -/
structure KeyHeld (s t : State) : Prop where
  keyLock : t.keyLock = true
  key : t.key = s.key
  keyLen : t.keyLen = s.keyLen
  inputs : t.inputs = s.inputs

namespace KeyHeld

variable {s t : State}

theorem refl (h : s.keyLock = true) : KeyHeld s s := ⟨h, rfl, rfl, rfl⟩

theorem with_resp (h : KeyHeld s t) (r : Response) : KeyHeld s { t with resp := r } := { h with }

theorem softReset (h : s.keyLock = true) : KeyHeld s s.softReset := by
  obtain ⟨m, n, heq⟩ := softReset_eq s
  rw [heq]
  exact { refl h with }

theorem writeCtrl (h : s.keyLock = true) (d : Word) : KeyHeld s (s.writeCtrl d) := by
  rw [State.writeCtrl]
  split
  · exact softReset h
  · exact { refl h with keyLock := by rw [State.writeCtrlFields_keyLock, h, Bool.true_or] }

/-- A KEYLEN write is dropped while locked (R34); no other register holds the key or the lock. -/
theorem writeReg (h : s.keyLock = true) (r : Reg) (d : Word) : KeyHeld s (s.writeReg r d) := by
  cases r with
  | ctrl => exact writeCtrl h d
  | keyLen =>
    rw [State.writeReg, State.writeKeyLen, if_pos h]
    exact { refl h with }
  | cmd =>
    rw [State.writeReg, State.writeCmd]
    split <;> exact { refl h with }
  | crcState =>
    rw [State.writeReg, State.writeCrcState]
    split <;> exact { refl h with }
  | status | src | len | dst | now => exact { refl h with }
  | id | outOff | outLen | ts | crcResult | digest0 | digest1 | digest2 | digest3 | digest4 => exact refl h

theorem writeBufWord (h : s.keyLock = true) (k : Nat) (d : Word) : KeyHeld s (s.writeBufWord k d) := by
  rw [State.writeBufWord]
  split <;> exact { refl h with }

theorem hostWrite (h : s.keyLock = true) (addr width : Nat) (d : Word) : KeyHeld s (s.hostWrite addr width d) := by
  rcases hostWrite_cases s addr width d with ⟨r, heq⟩ | ⟨-, off, -, hbus⟩
  · rw [heq]
    exact (refl h).with_resp r
  rcases busWrite_cases s off width d with ⟨r, heq⟩ | ⟨-, r, -, heq⟩ | ⟨k, -, -, heq⟩ | ⟨k, -, -, heq⟩
  · rw [hbus, heq]
    exact (refl h).with_resp r
  · rw [hbus, heq]
    exact (writeReg h r d).with_resp _
  · rw [hbus, heq, writeKeyWord_of_locked_or_busy (.inl h)]
    exact { refl h with }
  · rw [hbus, heq]
    exact (writeBufWord h k d).with_resp _

theorem hostRead (h : s.keyLock = true) (addr width : Nat) : KeyHeld s (s.hostRead addr width) := by
  obtain ⟨r, n, heq⟩ := hostRead_eq s addr width
  rw [heq]
  exact { refl h with }

theorem perform (h : s.keyLock = true) (hrun : Machine.perform s = .next t) : KeyHeld s t := by
  rcases perform_next hrun with ⟨-, rfl⟩ | ⟨-, i, -, hexec⟩ | ⟨-, -, rfl⟩
  · exact refl h
  · have hp := performed_of_exec hexec
    exact ⟨hp.keyLock.trans h, hp.key, hp.keyLen, hp.inputs⟩
  · exact { refl h with }

/-- One step that is not the assertion of the reset input keeps the lock and the key, and uses up at most its own
event. -/
theorem step (h : s.keyLock = true) (hnoReset : Event.assertReset ∉ s.inputs) (hstep : Machine.step s = .next t) :
    ∃ rest, Event.assertReset ∉ rest ∧ KeyHeld { s with inputs := rest } t := by
  have tail {e : Event} {rest : List Event} (hi : s.inputs = e :: rest) : Event.assertReset ∉ rest :=
    fun hmem => hnoReset (hi ▸ List.mem_cons_of_mem e hmem)
  rcases step_next hstep with ⟨-, hrun⟩ | ⟨addr, width, d, rest, hi, rfl⟩ | ⟨addr, width, rest, hi, rfl⟩ |
    ⟨rest, hi, hrun⟩ | ⟨rest, hi, -⟩ | ⟨rest, hi, rfl⟩
  · exact ⟨s.inputs, hnoReset, perform h hrun⟩
  · exact ⟨rest, tail hi, hostWrite (s := { s with inputs := rest }) h addr width d⟩
  · exact ⟨rest, tail hi, hostRead (s := { s with inputs := rest }) h addr width⟩
  · exact ⟨rest, tail hi, perform (s := { s with inputs := rest }) h hrun⟩
  · exact absurd (hi ▸ List.mem_cons_self) hnoReset
  · exact ⟨rest, tail hi, h, rfl, rfl, rfl⟩

end KeyHeld

/-- A run that completes goes through its first step. -/
theorem run_succ {M : Host.Core} {k : Nat} {s t : M.State} (h : M.run (k + 1) s = .next t) :
    ∃ u, M.step s = .next u ∧ M.run k u = .next t := by
  rw [Host.Core.run] at h
  split at h
  next u hu => exact ⟨u, hu, h⟩
  next => cases h
  next => cases h

/-- Settles O58, by induction on the length of the run. -/
theorem keyLockHoldsUntilHardwareReset : Obligations.KeyLockHoldsUntilHardwareReset := by
  intro k
  induction k with
  | zero =>
    intro s t hlock _ hrun
    obtain rfl : s = t := Host.Outcome.next.inj hrun
    exact ⟨hlock, rfl, rfl⟩
  | succ k ih =>
    intro s t hlock hnoReset hrun
    obtain ⟨u, hstep, hrest⟩ := run_succ (M := Sys2Proof.core) hrun
    obtain ⟨rest, hnoReset', hheld⟩ := KeyHeld.step hlock hnoReset hstep
    obtain ⟨htlock, htkey, htkeyLen⟩ := ih u t hheld.keyLock (hheld.inputs ▸ hnoReset') hrest
    exact ⟨htlock, htkey.trans hheld.key, htkeyLen.trans hheld.keyLen⟩

end Sys2Proof.Machine
end

section
/-! What sets BUSY (40_command_lifecycle.md R91, R92), and what the bus shows of KEY (20_memory.md R51). -/

namespace Sys2Proof.Machine

theorem mem_regMap_of_regAt {off : Nat} {r : Reg} (h : regAt off = some r) : (off, r) ∈ regMap := by
  obtain ⟨⟨off', r'⟩, hfind, rfl⟩ := Option.map_eq_some_iff.1 h
  obtain rfl : off' = off := by simpa only [beq_iff_eq] using List.find?_some hfind
  exact List.mem_of_find?_eq_some hfind

/-- CMD stands at 0x00C only (R74). -/
theorem off_of_regAt_cmd {off : Nat} (h : regAt off = some .cmd) : off = 0x00C := by
  have hrow : ∀ e ∈ regMap, e.2 = .cmd → e.1 = 0x00C := by decide
  exact hrow _ (mem_regMap_of_regAt h) rfl

section
variable {s t : State}

/-- No register but CMD has to do with BUSY while idle. -/
theorem busy_writeReg_of_idle (h : s.busy = false) {r : Reg} (hr : r ≠ .cmd) (d : Word) :
    (s.writeReg r d).busy = false := by
  cases r with
  | cmd => exact absurd rfl hr
  | ctrl =>
    rw [State.writeReg, State.writeCtrl, softReset_of_idle h]
    split
    · exact State.clearRegisters_busy s
    · exact h
  | keyLen =>
    rw [State.writeReg, State.writeKeyLen]
    split <;> exact h
  | crcState =>
    rw [State.writeReg, State.writeCrcState]
    split <;> exact h
  | status | src | len | dst | now => exact h
  | id | outOff | outLen | ts | crcResult | digest0 | digest1 | digest2 | digest3 | digest4 => exact h

/-- A bus write that sets BUSY is the accept of a word written to CMD (R92). -/
theorem accept_of_busy_busWrite {off width : Nat} {d : Word} (hidle : s.busy = false)
    (hbusy : (s.busWrite off width d).busy = true) :
    off = 0x00C ∧ width = 32 ∧ s.busWrite off width d = { s.accept d with resp := .written } := by
  have unchanged {u : State} (hu : u.busy = false) (r : Response)
      (heq : s.busWrite off width d = { u with resp := r }) : False := by
    rw [heq] at hbusy
    exact absurd (hbusy.symm.trans hu) (by decide)
  rcases busWrite_cases s off width d with ⟨r, heq⟩ | ⟨hwidth, r, hreg, heq⟩ | ⟨k, -, -, heq⟩ | ⟨k, -, -, heq⟩
  · exact (unchanged hidle _ heq).elim
  · by_cases hr : r = .cmd
    · subst hr
      obtain rfl := off_of_regAt_cmd hreg
      rw [hwidth]
      exact ⟨rfl, rfl, busWrite_cmd_of_idle hidle d⟩
    · exact (unchanged (busy_writeReg_of_idle hidle hr d) _ heq).elim
  · refine (unchanged ?_ _ heq).elim
    rw [State.writeKeyWord]
    split <;> exact hidle
  · refine (unchanged ?_ _ heq).elim
    rw [State.writeBufWord]
    split <;> exact hidle

end

/-- Settles O57: no other event of an idle engine sets BUSY. -/
theorem busyRisesOnlyByAccept : Obligations.BusyRisesOnlyByAccept := by
  intro s t hidle hstep hbusy
  have still {u : State} (hu : u.busy = false) : ¬ u.busy = true := by
    rw [hu]
    exact Bool.false_ne_true
  have idlePerform {u : State} (hu : u.busy = false) (hrun : perform u = .next t) : False := by
    obtain rfl := Host.Outcome.next.inj ((perform_of_idle hu).symm.trans hrun)
    exact still hu hbusy
  rcases step_next hstep with ⟨-, hrun⟩ | ⟨addr, width, d, rest, hi, rfl⟩ | ⟨addr, width, rest, -, rfl⟩ |
    ⟨rest, -, hrun⟩ | ⟨rest, -, rfl⟩ | ⟨rest, -, rfl⟩
  · exact (idlePerform hidle hrun).elim
  · rcases hostWrite_cases { s with inputs := rest } addr width d with ⟨r, heq⟩ | ⟨hreleased, off, rfl, heq⟩
    · rw [heq] at hbusy
      exact absurd hbusy (still hidle)
    · rw [heq] at hbusy ⊢
      obtain ⟨rfl, rfl, haccept⟩ := accept_of_busy_busWrite (s := { s with inputs := rest }) hidle hbusy
      rw [haccept]
      exact ⟨hreleased, d, rest, hi, rfl, rfl⟩
  · obtain ⟨r, n, heq⟩ := hostRead_eq { s with inputs := rest } addr width
    rw [heq] at hbusy
    exact absurd hbusy (still hidle)
  · exact (idlePerform (u := { s with inputs := rest }) hidle hrun).elim
  · exact absurd hbusy (still (State.hardwareReset_busy _))
  · exact absurd hbusy (still hidle)

/-! Two states that differ only in KEY -/

section
variable (s : State) (k : Memory)

theorem abandon_with_key : { s with key := k }.abandon = { s.abandon with key := k } := by
  have hword : { s with key := k }.commandWord = s.commandWord := rfl
  rw [State.abandon, State.abandon, hword]
  cases decodeWord s.commandWord with
  | error e => rfl
  | ok i =>
    have hcheck : commonCheck i { s with key := k } = commonCheck i s := rfl
    simp only [hcheck]
    split <;> rfl

theorem softReset_with_key : { s with key := k }.softReset = { s.softReset with key := k } := by
  rw [State.softReset, State.softReset, abandon_with_key]
  split <;> rfl

theorem writeReg_with_key (r : Reg) (d : Word) :
    { s with key := k }.writeReg r d = { s.writeReg r d with key := k } := by
  cases r with
  | ctrl =>
    simp only [State.writeReg, State.writeCtrl, softReset_with_key]
    split <;> rfl
  | cmd =>
    simp only [State.writeReg, State.writeCmd]
    split <;> rfl
  | keyLen =>
    simp only [State.writeReg, State.writeKeyLen]
    split <;> rfl
  | crcState =>
    simp only [State.writeReg, State.writeCrcState]
    split <;> rfl
  | status | src | len | dst | now => rfl
  | id | outOff | outLen | ts | crcResult | digest0 | digest1 | digest2 | digest3 | digest4 => rfl

/-- The one write whose new KEY depends on the old one. -/
theorem writeKeyWord_with_key (j : Nat) (d : Word) :
    ∃ k', { s with key := k }.writeKeyWord j d = { s.writeKeyWord j d with key := k' } := by
  simp only [State.writeKeyWord]
  split <;> exact ⟨_, rfl⟩

theorem writeBufWord_with_key (j : Nat) (d : Word) :
    { s with key := k }.writeBufWord j d = { s.writeBufWord j d with key := k } := by
  simp only [State.writeBufWord]
  split <;> rfl

theorem busWrite_with_key (off width : Nat) (d : Word) :
    ∃ k', { s with key := k }.busWrite off width d = { s.busWrite off width d with key := k' } := by
  simp only [State.busWrite]
  split
  · cases target s.params off with
    | reg r => exact ⟨k, by simp only [writeReg_with_key]⟩
    | keyWord j =>
      obtain ⟨k', hk'⟩ := writeKeyWord_with_key s k j d
      exact ⟨k', by simp only [hk']⟩
    | bufWord j => exact ⟨k, by simp only [writeBufWord_with_key]⟩
    | reserved => exact ⟨k, rfl⟩
  · exact ⟨k, rfl⟩

theorem hostWrite_with_key (addr width : Nat) (d : Word) :
    ∃ k', { s with key := k }.hostWrite addr width d = { s.hostWrite addr width d with key := k' } := by
  simp only [State.hostWrite]
  cases Params.offsetOf s.params addr with
  | none => exact ⟨k, rfl⟩
  | some off =>
    dsimp only
    split
    · exact ⟨k, rfl⟩
    · exact busWrite_with_key s k off width d

/-- The KEY window reads 0, and no other place shows KEY (R51). -/
theorem busRead_with_key (off width : Nat) :
    { s with key := k }.busRead off width = { s.busRead off width with key := k } := by
  simp only [State.busRead]
  split
  · cases target s.params off with
    | reg r =>
      dsimp only
      split
      · rfl
      · cases r <;> rfl
    | keyWord j => rfl
    | bufWord j =>
      dsimp only
      split <;> rfl
    | reserved => rfl
  · rfl

theorem hostRead_with_key (addr width : Nat) :
    { s with key := k }.hostRead addr width = { s.hostRead addr width with key := k } := by
  simp only [State.hostRead]
  cases Params.offsetOf s.params addr with
  | none => rfl
  | some off =>
    dsimp only
    split
    · rfl
    · exact busRead_with_key s k off width

end

/-- Settles O59: each event but the engine's turn takes two states that differ only in KEY to two such states. -/
theorem keyIsNotReadableOverTheBus : Obligations.KeyIsNotReadableOverTheBus := by
  intro s k e rest hi he
  cases e with
  | engineTurn => exact absurd rfl he
  | write addr width d =>
    obtain ⟨k', hk'⟩ := hostWrite_with_key { s with inputs := rest } k addr width d
    exact ⟨_, k', step_of_write hi,
      (step_of_write (s := { s with key := k }) hi).trans (congrArg Host.Outcome.next hk')⟩
  | read addr width =>
    have hk := hostRead_with_key { s with inputs := rest } k addr width
    exact ⟨_, k, step_of_read hi,
      (step_of_read (s := { s with key := k }) hi).trans (congrArg Host.Outcome.next hk)⟩
  | assertReset => exact ⟨_, [], step_of_assertReset hi, step_of_assertReset hi⟩
  | releaseReset => exact ⟨_, k, step_of_releaseReset hi, step_of_releaseReset hi⟩

end Sys2Proof.Machine
end

section
/-! What stops a step: an unwritten byte of the input or of the key, and nothing else (70_reset_and_hazards.md R190). -/

namespace Sys2Proof.Machine

/-- From `s` the result is no refusal, and a fault only for an unwritten byte of the input or of the key. -/
structure StopsOnlyOnUnwritten (s : State) (x : Result) : Prop where
  not_refused : ∀ r, x ≠ .refused r
  fault : ∀ f, x = .fault f →
    (f = .unwrittenBuf ∧ ∃ a, s.srcOff ≤ a ∧ a < s.srcOff + s.srcLen ∧ s.buf.read a = none) ∨
    (f = .unwrittenKey ∧ ∃ a, a < s.keyCount ∧ s.key.read a = none)

theorem withInput_of_none {s : State} {run : List Byte → Result} (h : s.buf.readBytes s.srcOff s.srcLen = none) :
    s.withInput run = .fault .unwrittenBuf := by
  rw [State.withInput, h]

theorem withKey_of_none {s : State} {run : List Byte → Result} (h : s.key.readBytes 0 s.keyCount = none) :
    s.withKey run = .fault .unwrittenKey := by
  rw [State.withKey, h]

namespace StopsOnlyOnUnwritten

variable {s : State}

theorem next (t : State) : StopsOnlyOnUnwritten s (.next t) := ⟨nofun, nofun⟩

theorem ite {p : Prop} [Decidable p] {x y : Result} (hx : StopsOnlyOnUnwritten s x)
    (hy : StopsOnlyOnUnwritten s y) : StopsOnlyOnUnwritten s (if p then x else y) := by
  split
  · exact hx
  · exact hy

theorem checked {i : Instr} {run : Result} (h : StopsOnlyOnUnwritten s run) :
    StopsOnlyOnUnwritten s (checked i s run) := by
  cases hcheck : commonCheck i s with
  | none =>
    rw [checked_of_none hcheck]
    exact h
  | some c =>
    rw [checked_of_some hcheck]
    exact next _

theorem withInput {run : List Byte → Result} (h : ∀ bs, StopsOnlyOnUnwritten s (run bs)) :
    StopsOnlyOnUnwritten s (s.withInput run) := by
  cases hread : s.buf.readBytes s.srcOff s.srcLen with
  | some bs =>
    rw [withInput_of_some hread]
    exact h bs
  | none =>
    rw [withInput_of_none hread]
    refine ⟨nofun, ?_⟩
    rintro _ ⟨⟩
    exact .inl ⟨rfl, Memory.readBytes_eq_none_iff.1 hread⟩

theorem withKey {run : List Byte → Result} (h : ∀ k, StopsOnlyOnUnwritten s (run k)) :
    StopsOnlyOnUnwritten s (s.withKey run) := by
  cases hread : s.key.readBytes 0 s.keyCount with
  | some k =>
    rw [withKey_of_some hread]
    exact h k
  | none =>
    rw [withKey_of_none hread]
    refine ⟨nofun, ?_⟩
    rintro _ ⟨⟩
    obtain ⟨a, -, ha, hnone⟩ := Memory.readBytes_eq_none_iff.1 hread
    exact .inr ⟨rfl, a, by omega, hnone⟩

theorem unpackAuthTag (payload tag : List Byte) : StopsOnlyOnUnwritten s (unpackAuthTag s payload tag) :=
  withKey fun _ => ite (next _) (next _)

theorem unpackAuthInner (inner : List Byte) : StopsOnlyOnUnwritten s (unpackAuthInner s inner) :=
  ite (next _) (ite (next _) (ite (next _) (unpackAuthTag ..)))

theorem unpackCsumFields (body : List Byte) (n : Nat) : StopsOnlyOnUnwritten s (unpackCsumFields s body n) :=
  ite (next _) (ite (next _) (next _))

theorem exec (i : Instr) : StopsOnlyOnUnwritten s (exec i s) := by
  cases i with
  | nop => exact checked (i := .nop) (next (s.complete .ok 0 0))
  | crcInit => exact checked (i := .crcInit) (next ({ s with crcState := crcInitial }.complete .ok 0 0))
  | crcUpdate | crc32 | packCsum => exact checked (withInput fun _ => next _)
  | hmac | hmacHex | packAuth => exact checked (withInput fun _ => withKey fun _ => next _)
  | unpackCsum => exact checked (withInput fun _ => ite (next _) (ite (next _) (unpackCsumFields ..)))
  | unpackAuth => exact checked (withInput fun _ => ite (next _) (ite (next _) (unpackAuthInner _)))

theorem perform : StopsOnlyOnUnwritten s (perform s) := by
  rw [Machine.perform]
  split
  · split
    · exact exec _
    · exact next _
  · exact next _

end StopsOnlyOnUnwritten

/-- Only a command in flight faults. -/
theorem busy_of_perform_fault {s : State} {f : Fault} (h : perform s = .fault f) : s.busy = true := by
  by_contra hidle
  rw [perform_of_idle (Bool.eq_false_of_not_eq_true hidle)] at h
  cases h

/-- Settles O8: the engine's turn is the one event that can stop. -/
theorem stepStopsOnlyOnUnwrittenBytes : Obligations.StepStopsOnlyOnUnwrittenBytes := by
  intro s
  cases hinputs : s.inputs with
  | nil =>
    rw [step_of_noInputs hinputs]
    exact ⟨StopsOnlyOnUnwritten.perform.not_refused,
      fun f hf => ⟨busy_of_perform_fault hf, StopsOnlyOnUnwritten.perform.fault f hf⟩⟩
  | cons e rest =>
    cases e with
    | engineTurn =>
      rw [step_of_engineTurn hinputs]
      have hstop := StopsOnlyOnUnwritten.perform (s := { s with inputs := rest })
      exact ⟨hstop.not_refused,
        fun f hf => ⟨busy_of_perform_fault (s := { s with inputs := rest }) hf, hstop.fault f hf⟩⟩
    | write addr width d =>
      rw [step_of_write hinputs]
      exact ⟨nofun, nofun⟩
    | read addr width =>
      rw [step_of_read hinputs]
      exact ⟨nofun, nofun⟩
    | assertReset =>
      rw [step_of_assertReset hinputs]
      exact ⟨nofun, nofun⟩
    | releaseReset =>
      rw [step_of_releaseReset hinputs]
      exact ⟨nofun, nofun⟩

end Sys2Proof.Machine
end

section
/-! UNPACK_AUTH by its length checks, one after another (44_auth_framing.md R153, R155), and the order in which a
command meets its unwritten bytes. -/

namespace Sys2Proof.Machine

/-- The field at a place is what dec32 reads there (R111). -/
theorem field32_of_dec32 {b : List Byte} {i : Nat} {v : Word} (h : dec32 (b.drop i) = some v) : field32 b i = v := by
  have htake : dec32 ((b.drop i).take 4) = dec32 (b.drop i) := by
    match b.drop i with
    | [] | [_] | [_, _] | [_, _, _] => rfl
    | _ :: _ :: _ :: _ :: _ => rfl
  rw [field32, slice, Nat.add_sub_cancel_left, htake, h, Option.getD_some]

theorem length_of_dec32 {b : List Byte} {v : Word} (h : dec32 b = some v) : 4 ≤ b.length := by
  by_contra hlt
  rw [dec32_of_length_lt (Nat.lt_of_not_le hlt)] at h
  cases h

section
variable {s : State} {body : List Byte}

/-- UNPACK_AUTH once its common checks have passed and its input is read. -/
theorem exec_unpackAuth_of_input (hpass : ChecksPass .unpackAuth s) (hin : InputIs s body) :
    exec .unpackAuth s =
      if s.srcLen < 4 then s.raise .formatError
      else if (field32 body 0).toNat ≠ s.srcLen - 4 then s.raise .lengthMismatch
      else unpackAuthInner s (body.drop 4) := by
  have hcheck : commonCheck .unpackAuth s = none := (commonCheck_eq_none_iff_checksPass ..).2 hpass
  exact (checked_of_none hcheck).trans (withInput_of_some hin)

/-- The outer length field agrees with the input, so the inner structure is looked at. -/
theorem exec_unpackAuth_of_outer (hpass : ChecksPass .unpackAuth s) (hin : InputIs s body) {o : Word}
    (ho : dec32 body = some o) (hlen : o.toNat = s.srcLen - 4) :
    exec .unpackAuth s = unpackAuthInner s (body.drop 4) := by
  have hbody : body.length = s.srcLen := Memory.readBytes_length hin
  have hfour := length_of_dec32 ho
  rw [exec_unpackAuth_of_input hpass hin, if_neg (by omega), field32_of_dec32 (i := 0) ho, if_neg (not_not.2 hlen)]

/-- The inner structure has room for its fields and a payload of `n` bytes, so the tag length is looked at. -/
theorem unpackAuthInner_of_fields (hin : InputIs s body) {n k : Word} (hn : dec32 (body.drop 4) = some n)
    (hroom : n.toNat + 8 ≤ s.srcLen - 4) (hk : dec32 (body.drop (8 + n.toNat)) = some k) :
    unpackAuthInner s (body.drop 4) =
      if k.toNat ≠ s.srcLen - 12 - n.toNat then s.raise .tagLengthMismatch
      else unpackAuthTag s (slice (body.drop 4) 4 (4 + n.toNat))
        (slice (body.drop 4) (8 + n.toNat) (body.drop 4).length) := by
  have hbody : body.length = s.srcLen := Memory.readBytes_length hin
  have hinner : (body.drop 4).length = s.srcLen - 4 := by rw [List.length_drop, hbody]
  have hnField : field32 (body.drop 4) 0 = n := field32_of_dec32 hn
  have hkField : field32 (body.drop 4) (4 + n.toNat) = k := by
    refine field32_of_dec32 ?_
    rw [List.drop_drop, ← hk]
    congr 2
    omega
  rw [unpackAuthInner, hnField, hkField, if_neg (by omega), if_neg (by omega), hinner,
    show s.srcLen - 4 - 8 - n.toNat = s.srcLen - 12 - n.toNat by omega]

/-- The inner structure is too short for a length field. -/
theorem unpackAuthInner_of_short {inner : List Byte} (h : inner.length < 4) :
    unpackAuthInner s inner = s.raise .formatError := by
  rw [unpackAuthInner, if_pos h]

/-- The inner structure is too short for its payload and its two length fields. -/
theorem unpackAuthInner_of_truncated {inner : List Byte} {n : Word} (hn : dec32 inner = some n)
    (h : inner.length < n.toNat + 8) : unpackAuthInner s inner = s.raise .formatError := by
  have hnField : field32 inner 0 = n := field32_of_dec32 hn
  have hfour := length_of_dec32 hn
  rw [unpackAuthInner, hnField, if_neg (by omega), if_pos h]

/-- A failure's completion, field by field. -/
theorem raise_of_ne_ok {c : Code} (h : c ≠ .ok) :
    s.raise c = .next { s with code := c, outOff := 0, outLen := 0, busy := false, done := true } := by
  rw [State.raise, complete_of_ne_ok h]

end

/-- Settles O36: each failing check is the first one of R153 that the frame fails. -/
theorem unpackAuthLengthFailures : Obligations.UnpackAuthLengthFailures := by
  intro s body hpass hin len failed
  have hbody : body.length = len := Memory.readBytes_length hin
  refine ⟨fun hshort => ?short, fun o ho hne => ?outer, fun o ho hlen => ?inner⟩
  case short =>
    rw [exec_unpackAuth_of_input hpass hin, if_pos hshort, raise_of_ne_ok (by decide)]
  case outer =>
    have hfour := length_of_dec32 ho
    rw [exec_unpackAuth_of_input hpass hin, if_neg (Nat.not_lt.2 (hfour.trans_eq hbody)), field32_of_dec32 (i := 0) ho,
      if_pos hne, raise_of_ne_ok (by decide)]
  case inner =>
    have hinner : (body.drop 4).length = len - 4 := by rw [List.length_drop, hbody]
    rw [exec_unpackAuth_of_outer hpass hin ho hlen]
    refine ⟨fun hshort => ?_, fun n hn => ⟨fun htruncated => ?_, fun k hroom hk hne => ?_⟩⟩
    · rw [unpackAuthInner_of_short (hinner.trans_lt hshort), raise_of_ne_ok (by decide)]
    · rw [unpackAuthInner_of_truncated hn (hinner.trans_lt htruncated), raise_of_ne_ok (by decide)]
    · rw [unpackAuthInner_of_fields hin hn hroom hk, if_pos hne, raise_of_ne_ok (by decide)]

/-- Every command that reads an input reads it right after the common checks. -/
theorem exec_of_unwritten_input {i : Instr} {s : State} (hpass : ChecksPass i s) (hi : readsSrc i = true)
    (hread : s.buf.readBytes s.srcOff s.srcLen = none) : exec i s = .fault .unwrittenBuf := by
  have hcheck : commonCheck i s = none := (commonCheck_eq_none_iff_checksPass ..).2 hpass
  cases i with
  | nop | crcInit => cases hi
  | crcUpdate | crc32 | hmac | hmacHex | packCsum | unpackCsum | packAuth | unpackAuth =>
    exact (checked_of_none hcheck).trans (withInput_of_none hread)

/-- HMAC, HMAC_HEX and PACK_AUTH read the key right after the input. -/
theorem exec_of_unwritten_key {i : Instr} {s : State} {input : List Byte} (hpass : ChecksPass i s)
    (hi : i ∈ ([.hmac, .hmacHex, .packAuth] : List Instr)) (hin : InputIs s input)
    (hread : s.key.readBytes 0 s.keyCount = none) : exec i s = .fault .unwrittenKey := by
  have hcheck : commonCheck i s = none := (commonCheck_eq_none_iff_checksPass ..).2 hpass
  cases i with
  | hmac | hmacHex | packAuth =>
    exact (checked_of_none hcheck).trans ((withInput_of_some hin).trans (withKey_of_none hread))
  | nop | crcInit | crcUpdate | crc32 | packCsum | unpackCsum | unpackAuth => exact absurd hi (by decide)

/-- Settles O9: the input is read whole before anything else, the key after it, and for UNPACK_AUTH after the length
checks. -/
theorem unwrittenInputFaults : Obligations.UnwrittenInputFaults := by
  intro i s a hpass
  refine ⟨fun hi hlow hhigh hnone => ?input, fun input hin ha hnone => ?key⟩
  case input =>
    exact exec_of_unwritten_input hpass ((readsSrc_iff_mem i).2 hi)
      (Memory.readBytes_eq_none_iff.2 ⟨a, hlow, hhigh, hnone⟩)
  case key =>
    have hread : s.key.readBytes 0 s.keyCount = none :=
      Memory.readBytes_eq_none_iff.2 ⟨a, Nat.zero_le a, ha.trans_eq (Nat.zero_add _).symm, hnone⟩
    refine ⟨fun hi => exec_of_unwritten_key hpass hi hin hread, ?_⟩
    rintro o n k rfl ho hlen hn hroom hk htag
    rw [exec_unpackAuth_of_outer hpass hin ho hlen, unpackAuthInner_of_fields hin hn hroom hk,
      if_neg (not_not.2 htag)]
    exact withKey_of_none hread

end Sys2Proof.Machine
end

section
/-! A change confined to one byte changes CRC32 (41_crc32.md R124): every step of the update function is injective, in
the running state and in the byte. -/

namespace Sys2Proof.Machine

/-- The bit shifted out decides whether the generator, whose bit 31 is set, is added: it comes back as bit 31. -/
theorem crcShift_getLsbD_31 (c : Word) : (crcShift c).getLsbD 31 = c.getLsbD 0 := by
  have hpoly : crcPoly.getLsbD 31 = true := by decide
  have htop : (c >>> 1).getLsbD 31 = false := by rw [BitVec.getLsbD_ushiftRight, BitVec.getLsbD_of_ge c _ (by decide)]
  rw [crcShift]
  split
  next h => rw [BitVec.getLsbD_xor, htop, hpoly, h, Bool.false_xor]
  next h => rw [htop, Bool.eq_false_of_not_eq_true h]

theorem crcShift_injective : Function.Injective crcShift := by
  intro c c' h
  have hlow : c.getLsbD 0 = c'.getLsbD 0 := by rw [← crcShift_getLsbD_31, h, crcShift_getLsbD_31]
  have hhigh : c >>> 1 = c' >>> 1 := by
    rw [crcShift, crcShift, hlow] at h
    split at h
    · exact (BitVec.xor_left_inj _).1 h
    · exact h
  refine BitVec.eq_of_getLsbD_eq fun i _ => ?_
  cases i with
  | zero => exact hlow
  | succ i =>
    have hbit := congrArg (·.getLsbD i) hhigh
    simpa only [BitVec.getLsbD_ushiftRight, Nat.add_comm 1] using hbit

theorem crcShifts_injective (n : Nat) : Function.Injective (crcShifts n) := by
  induction n with
  | zero => exact fun _ _ h => h
  | succ n ih => exact ih.comp crcShift_injective

theorem crcByte_injective_state (b : Byte) : Function.Injective fun c => crcByte c b :=
  fun _ _ h => (BitVec.xor_left_inj _).1 (crcShifts_injective 8 h)

theorem crcByte_injective_byte (c : Word) : Function.Injective (crcByte c) := by
  intro b b' h
  have hwide : b.setWidth 32 = b'.setWidth 32 := (BitVec.xor_right_inj _).1 (crcShifts_injective 8 h)
  have hback := congrArg (BitVec.setWidth 8) hwide
  rwa [BitVec.setWidth_setWidth_of_le _ (by decide), BitVec.setWidth_setWidth_of_le _ (by decide),
    BitVec.setWidth_eq, BitVec.setWidth_eq] at hback

theorem crcBytes_injective (d : List Byte) : Function.Injective fun c => crcBytes c d := by
  induction d with
  | nil => exact fun _ _ h => h
  | cons b d ih => exact ih.comp (crcByte_injective_state b)

/-- Settles O22: up to the changed byte the states are equal, there they part, and no byte after it joins them. -/
theorem crcDetectsOneChangedByte : Obligations.CrcDetectsOneChangedByte := by
  intro pre post b b' hne heq
  have hstate : crcBytes crcInitial (pre ++ b :: post) = crcBytes crcInitial (pre ++ b' :: post) :=
    BitVec.not_inj.1 heq
  rw [crcBytes_append, crcBytes_append, crcBytes_cons, crcBytes_cons] at hstate
  exact hne (crcByte_injective_byte _ (crcBytes_injective post hstate))

end Sys2Proof.Machine
end

section
/-! Each command on a written input and key whose checks pass: its completion in full (41_crc32.md R120, R121;
42_hmac.md R133, R134; 43_checksum_framing.md R142, R143; 44_auth_framing.md R152 to R154). -/

namespace Sys2Proof.Machine

section
variable {i : Instr} {s : State} {input key : List Byte}

/-- The common checks pass and the input is read. -/
theorem checked_withInput_of_input {run : List Byte → Result} (hpass : ChecksPass i s) (hin : InputIs s input) :
    checked i s (s.withInput run) = run input :=
  (checked_of_none ((commonCheck_eq_none_iff_checksPass ..).2 hpass)).trans (withInput_of_some hin)

/-- The common checks pass, and the input and the key are read. -/
theorem checked_withKey_of_key {run : List Byte → List Byte → Result} (hpass : ChecksPass i s)
    (hin : InputIs s input) (hkey : KeyIs s key) :
    checked i s (s.withInput fun b => s.withKey (run b)) = run input key :=
  (checked_withInput_of_input hpass hin).trans (withKey_of_some hkey)

/-- The length of the input is L.LEN, so the length field of a packed payload is that word (R82, R83). -/
theorem u32_length_of_input (hin : InputIs s input) : u32 input.length = s.latch.len := by
  rw [Memory.readBytes_length hin, u32, BitVec.ofNat_toNat, BitVec.setWidth_eq]

end

/-- A length computed on naturals and written to a register is the sum of words (R112). -/
theorem u32_toNat_add (w : Word) (n : Nat) : u32 (w.toNat + n) = w + u32 n := by
  rw [u32, u32, BitVec.ofNat_add, BitVec.ofNat_toNat, BitVec.setWidth_eq]

/-- A command that completes in `u m`, where `m` is BUF with its output bytes written: they read back, and every other
byte reads as before. The bytes are a variable here, so that nothing computes them. -/
theorem completes_writing {x : Result} {u : Memory → State} {m : Memory} {off n : Nat} {bs : List Byte}
    (hrun : x = .next (u (m.writeBytes off bs))) (hbuf : ∀ m', (u m').buf = m') (hlen : bs.length = n) :
    ∃ t, x = .next t ∧ t = u t.buf ∧ t.buf.readBytes off n = some bs ∧
      ∀ a, a < off ∨ off + n ≤ a → t.buf.read a = m.read a := by
  refine ⟨_, hrun, ?_⟩
  rw [hbuf, ← hlen]
  exact ⟨rfl, Memory.readBytes_writeBytes m off bs, fun _ ha => Memory.read_writeBytes_outside ha⟩

/-- Settles O18. -/
theorem crcUpdateCompletes : Obligations.CrcUpdateCompletes :=
  fun _ _ hpass hin => exec_crcUpdate_of_input hpass hin

/-- Settles O19: CRC_RESULT is the complement of the running state. -/
theorem crc32Completes : Obligations.Crc32Completes := by
  intro s input hpass hin
  have hrun : exec .crc32 s = .next ({ s with crcState := crcBytes crcInitial input }.complete .ok 0 0) :=
    checked_withInput_of_input hpass hin
  exact ⟨_, hrun, rfl, busRead_crcResult_of_idle (State.complete_busy ..)⟩

/-- Settles O26. -/
theorem hmacCompletes : Obligations.HmacCompletes :=
  fun _ _ _ hpass hin hkey => checked_withKey_of_key hpass hin hkey

/-- Settles O27: the hex text of the digest fills the 40 bytes at L.DST. Digest and text are made variables before
the states are compared, so that neither is computed. -/
theorem hmacHexCompletes : Obligations.HmacHexCompletes := by
  intro s key input hpass hin hkey
  have hrun : exec .hmacHex s = .next ({ s with
      digest := hmacSha1 key input
      buf := s.buf.writeBytes s.dstOff (tagText (hmacSha1 key input)) }.complete .ok s.latch.dst 40) :=
    checked_withKey_of_key hpass hin hkey
  generalize hmacSha1 key input = digest at hrun ⊢
  generalize htext : tagText digest = text at hrun
  have hlen : text.length = 40 := htext ▸ tagText_length digest
  have hwritten := completes_writing (u := fun m => { s with
    digest := digest, buf := m
    code := .ok, outOff := s.latch.dst, outLen := 40, busy := false, done := true }) hrun (fun _ => rfl) hlen
  subst htext
  exact hwritten

/-- Settles O29: the body fills L.LEN + 12 bytes at L.DST. -/
theorem packCsumCompletes : Obligations.PackCsumCompletes := by
  intro s payload hpass hin
  have hrun : exec .packCsum s = .next ({ s with
      crcState := csumState (be32 s.latch.now) payload
      ts := s.latch.now
      buf := s.buf.writeBytes s.dstOff (csumBody payload s.latch.now) }.complete .ok s.latch.dst
        (u32 (s.srcLen + 12))) :=
    checked_withInput_of_input hpass hin
  have hlen : (csumBody payload s.latch.now).length = s.srcLen + 12 := by
    rw [csumBody_length, Memory.readBytes_length hin]
  rw [u32_toNat_add] at hrun
  rw [csumBody, u32_length_of_input hin] at hrun hlen
  exact completes_writing (u := fun m => { s with
    crcState := csumState (be32 s.latch.now) payload, ts := s.latch.now, buf := m
    code := .ok, outOff := s.latch.dst, outLen := s.latch.len + 12, busy := false, done := true }) hrun
    (fun _ => rfl) hlen

/-- Settles O34: the frame fills L.LEN + 52 bytes at L.DST, 48 of them beside the payload behind the outer length. -/
theorem packAuthCompletes : Obligations.PackAuthCompletes := by
  intro s key payload hpass hin hkey
  have hrun : exec .packAuth s = .next ({ s with
      digest := hmacSha1 key payload
      buf := s.buf.writeBytes s.dstOff (authFrame payload (authTag key payload)) }.complete .ok s.latch.dst
        (u32 (s.srcLen + 52))) :=
    checked_withKey_of_key hpass hin hkey
  have hpayload : payload.length = s.srcLen := Memory.readBytes_length hin
  have htag : (authTag key payload).length = 40 := tagText_length _
  have hlen : (authFrame payload (authTag key payload)).length = s.srcLen + 52 := by
    rw [authFrame_length, hpayload]
  have houter : u32 (authInner payload (authTag key payload)).length = s.latch.len + 48 := by
    rw [authInner_length, hpayload, htag, Nat.add_assoc, u32_toNat_add]
    rfl
  have hframe : authFrame payload (authTag key payload) =
      be32 (s.latch.len + 48) ++ be32 s.latch.len ++ payload ++ be32 40 ++ authTag key payload := by
    rw [authFrame, houter, authInner, u32_length_of_input hin, htag]
    simp only [List.append_assoc]
    rfl
  rw [u32_toNat_add, hframe] at hrun
  rw [hframe] at hlen
  exact completes_writing (u := fun m => { s with
    digest := hmacSha1 key payload, buf := m
    code := .ok, outOff := s.latch.dst, outLen := s.latch.len + 52, busy := false, done := true }) hrun
    (fun _ => rfl) hlen

/-- Settles O30: a timestamp that is not fresh is one older than 60 seconds. -/
theorem unpackCsumVerdict : Obligations.UnpackCsumVerdict := by
  intro s payload stamp f hpass hin c t
  have hrun := exec_unpackCsum_of_csumLayout hpass hin
  have hfresh : ¬ fresh stamp s.latch.now = true ↔ stamp.toNat + 60 < s.latch.now.toNat := by
    rw [fresh_iff, Nat.not_le]
  rw [hrun]
  by_cases hcrc : ~~~ c ≠ f
  · rw [if_pos hcrc]
    exact if_pos hcrc
  · rw [if_neg hcrc]
    refine (if_neg hcrc).trans ?_
    by_cases hexpired : stamp.toNat + 60 < s.latch.now.toNat
    · rw [if_pos hexpired, if_neg (hfresh.2 hexpired)]
      rfl
    · rw [if_neg hexpired, if_pos (not_not.1 (mt hfresh.1 hexpired))]
      rfl

/-- Settles O31: both length checks come before CRC_STATE and TS are set. -/
theorem unpackCsumFormatError : Obligations.UnpackCsumFormatError := by
  intro s body hpass hin hbad
  have hrun : exec .unpackCsum s =
      if s.srcLen < 4 then s.raise .formatError
      else if s.srcLen ≠ (field32 body 0).toNat + 12 then s.raise .formatError
      else unpackCsumFields s body (field32 body 0).toNat :=
    checked_withInput_of_input hpass hin
  rw [hrun]
  by_cases hshort : s.srcLen < 4
  · rw [if_pos hshort, raise_of_ne_ok (by decide)]
  · rw [if_neg hshort]
    obtain ⟨n, hn, hlen⟩ := hbad.resolve_left hshort
    rw [field32_of_dec32 (i := 0) hn, if_pos hlen, raise_of_ne_ok (by decide)]

/-- Settles O32: the CRC of the bytes before the change is not the CRC of those after it. -/
theorem csumTamperIsDetected : Obligations.CsumTamperIsDetected := by
  intro s payload payload' pre post stamp stamp' b b' hold hnew hne hpass hin
  have hcrc : crcResult (csumState (be32 stamp') payload') ≠ crc32Of (be32 stamp ++ payload) := by
    have hdetect := crcDetectsOneChangedByte pre post b b' hne
    rw [← hold, ← hnew] at hdetect
    exact hdetect.symm
  exact ⟨_, (exec_unpackCsum_of_csumLayout hpass hin).trans (if_pos hcrc), rfl⟩

/-- Settles O35: every length check passes, and the tag of the layout is compared with the recomputed one. -/
theorem unpackAuthVerdict : Obligations.UnpackAuthVerdict := by
  intro s key payload tag hpass hkey hin h t
  have hframe : InputIs s (authFrame payload tag) := by
    rw [authFrame, authInner_length]
    exact hin
  rw [exec_unpackAuth_of_authFrame hpass hkey hframe]
  by_cases htag : tag = authTag key payload
  · rw [if_pos (tagEqual_iff.2 htag.symm)]
    exact congrArg Host.Outcome.next (if_pos htag).symm
  · rw [if_neg (mt tagEqual_iff.1 (Ne.symm htag))]
    exact congrArg Host.Outcome.next (if_neg htag).symm

end Sys2Proof.Machine
end

section
/-! The registers and the BUF window, read and written over the bus (10_state.md R19 to R39, 20_memory.md R50, R53). -/

namespace Sys2Proof.Machine

/-! Registers -/

section
variable {s : State} {off : Nat} {r : Reg}

theorem accessOk_of_mem_regMap (h : (off, r) ∈ regMap) : accessOk 32 off = true ∧ regAt off = some r := by
  have hrow : ∀ e ∈ regMap, accessOk 32 e.1 = true ∧ regAt e.1 = some e.2 := by decide
  exact hrow _ h

/-- A register reads its value unless it is hidden while busy (R53). -/
theorem busRead_of_mem_regMap (h : (off, r) ∈ regMap) :
    s.busRead off 32 = if s.busy && r.hiddenWhileBusy then s.answerFree else s.answer (s.readReg r) := by
  obtain ⟨hfit, hreg⟩ := accessOk_of_mem_regMap h
  exact busRead_reg hfit hreg

theorem busRead_of_shown (h : (off, r) ∈ regMap) (hshown : (s.busy && r.hiddenWhileBusy) = false) :
    s.busRead off 32 = { s with resp := .data (s.readReg r) } := by
  rw [busRead_of_mem_regMap h, hshown, if_neg Bool.false_ne_true, State.answer]

theorem busRead_of_hidden (h : (off, r) ∈ regMap) (hbusy : s.busy = true) (hhidden : r.hiddenWhileBusy = true) :
    s.busRead off 32 = { s with resp := .data (Config.freeWord s.draws), draws := s.draws + 1 } := by
  rw [busRead_of_mem_regMap h, if_pos (Bool.and_eq_true_iff.2 ⟨hbusy, hhidden⟩), State.answerFree]

theorem busWrite_of_mem_regMap (h : (off, r) ∈ regMap) (d : Word) :
    s.busWrite off 32 d = { s.writeReg r d with resp := .written } := by
  obtain ⟨hfit, hreg⟩ := accessOk_of_mem_regMap h
  exact busWrite_reg hfit hreg d

end

/-- Rows of the register map, each with the value its register reads. -/
def readTable (s : State) (rows : List (Nat × Reg)) : List (Nat × Word) :=
  rows.map fun e => (e.1, s.readReg e.2)

theorem busRead_readTable {s : State} {rows : List (Nat × Reg)}
    (h : ∀ e ∈ rows, e ∈ regMap ∧ (s.busy && e.2.hiddenWhileBusy) = false) :
    ∀ e ∈ readTable s rows, s.busRead e.1 32 = { s with resp := .data e.2 } := by
  intro e he
  obtain ⟨row, hrow, rfl⟩ := List.mem_map.1 he
  obtain ⟨hmem, hshown⟩ := h row hrow
  exact busRead_of_shown hmem hshown

/-- Settles O40: the list of the statement is the register map with the value of each register. -/
theorem idleRegisterReads : Obligations.IdleRegisterReads := by
  intro s hidle
  exact busRead_readTable (rows := regMap) fun e he => ⟨he, by rw [hidle, Bool.false_and]⟩

theorem busRead_bufWord {s : State} {off k : Nat} (hoff : off % 4 = 0) (h : target s.params off = .bufWord k) :
    s.busRead off 32 = if s.busy then s.answerFree else s.readBufWord k := by
  rw [State.busRead, if_pos (accessOk_iff.2 ⟨rfl, hoff⟩), h]

/-- Settles O41: the hidden registers and BUF give the next free value, the rest of the register map is shown. -/
theorem busyReadsAreUnspecified : Obligations.BusyReadsAreUnspecified := by
  intro s hwf hbusy
  refine ⟨fun off hoff => ?hidden, ?shown⟩
  case hidden =>
    rcases hoff with hreg | ⟨k, hk, rfl⟩
    · have hrows : ∀ o ∈ [0x024, 0x028, 0x02C, 0x030, 0x034, 0x040, 0x044, 0x048, 0x04C, 0x050],
          ∃ e ∈ regMap, e.1 = o ∧ e.2.hiddenWhileBusy = true := by decide
      obtain ⟨⟨o, r⟩, hmem, rfl, hhidden⟩ := hrows off hreg
      exact busRead_of_hidden hmem hbusy hhidden
    · rw [busRead_bufWord (by omega) (target_bufWord hwf hk), if_pos hbusy, State.answerFree]
  case shown =>
    have hshown : ∀ e ∈ regMap.take 9, e.2.hiddenWhileBusy = false := by decide
    exact busRead_readTable (rows := regMap.take 9) fun e he =>
      ⟨List.mem_of_mem_take he, by rw [hshown e he, Bool.and_false]⟩

/-- Settles O45: each operand register is stored or dropped by its own rule. -/
theorem operandRegisterWrites : Obligations.OperandRegisterWrites := by
  intro s d
  have hwrite {off : Nat} (r : Reg) (h : (off, r) ∈ regMap) :
      s.busWrite off 32 d = { s.writeReg r d with resp := .written } := busWrite_of_mem_regMap h d
  refine ⟨hwrite .src (by decide), hwrite .len (by decide), hwrite .dst (by decide), hwrite .now (by decide),
    fun hlocked => ?_, fun hunlocked => ?_, fun hbusy => ?_, fun hidle => ?_⟩
  · rw [hwrite .keyLen (by decide), State.writeReg, State.writeKeyLen, if_pos hlocked]
  · rw [hwrite .keyLen (by decide), State.writeReg, State.writeKeyLen, hunlocked, if_neg Bool.false_ne_true]
  · rw [hwrite .crcState (by decide), State.writeReg, State.writeCrcState, if_pos hbusy]
  · rw [hwrite .crcState (by decide), State.writeReg, State.writeCrcState, hidle, if_neg Bool.false_ne_true]

/-- The registers a host write leaves alone (R19, R35, R36, R38, R39). -/
def Reg.readOnly : Reg → Bool
  | .id | .outOff | .outLen | .ts | .crcResult | .digest0 | .digest1 | .digest2 | .digest3 | .digest4 => true
  | .ctrl | .status | .cmd | .src | .len | .dst | .now | .keyLen | .crcState => false

theorem writeReg_of_readOnly {r : Reg} (s : State) (h : r.readOnly = true) (d : Word) : s.writeReg r d = s := by
  cases r with
  | id | outOff | outLen | ts | crcResult | digest0 | digest1 | digest2 | digest3 | digest4 => rfl
  | ctrl | status | cmd | src | len | dst | now | keyLen | crcState => cases h

/-- Settles O46: the offsets listed are those of the read-only registers. -/
theorem readOnlyRegistersIgnoreWrites : Obligations.ReadOnlyRegistersIgnoreWrites := by
  intro s d off hoff
  have hrows : ∀ o ∈ [0x000, 0x024, 0x028, 0x02C, 0x034, 0x040, 0x044, 0x048, 0x04C, 0x050],
      ∃ e ∈ regMap, e.1 = o ∧ e.2.readOnly = true := by decide
  obtain ⟨⟨o, r⟩, hmem, rfl, hreadOnly⟩ := hrows off hoff
  rw [busWrite_of_mem_regMap hmem, writeReg_of_readOnly s hreadOnly]

/-! The words of CTRL and STATUS -/

theorem toNat_append_eq_mul_add {v w : Nat} (x : BitVec v) (y : BitVec w) :
    (x ++ y).toNat = x.toNat * 2 ^ w + y.toNat := by
  rw [BitVec.toNat_append, Nat.shiftLeft_eq, Nat.mul_comm, Nat.two_pow_add_eq_or_of_lt y.isLt]

/-- CTRL as read, as a number (R20 to R24). -/
theorem ctrlWord_toNat (s : State) :
    s.ctrlWord.toNat = s.ie.toNat + 2 * s.keyLock.toNat + 4 * s.hashSel.toNat := by
  simp only [State.ctrlWord, toNat_append_eq_mul_add, BitVec.toNat_ofBool,
    BitVec.ofNat_eq_ofNat, BitVec.toNat_ofNat, Nat.zero_mod]
  omega

/-- STATUS as read, as a number (R25 to R29). -/
theorem statusWord_toNat (s : State) :
    s.statusWord.toNat = s.busy.toNat + 2 * s.done.toNat + 4 * s.busyWr.toNat + 8 * s.lockWr.toNat +
      256 * s.code.toByte.toNat := by
  simp only [State.statusWord, toNat_append_eq_mul_add, BitVec.toNat_ofBool,
    BitVec.ofNat_eq_ofNat, BitVec.toNat_ofNat, Nat.zero_mod]
  omega

/-- Settles O47. -/
theorem ctrlFields : Obligations.CtrlFields := by
  intro s d
  refine ⟨fun hsrst => ?write, ?read, ctrlWord_toNat s⟩
  case write => rw [busWrite_ctrl, writeCtrl_of_not_srst s hsrst, State.writeCtrlFields]
  case read => exact busRead_of_shown (r := .ctrl) (by decide) (Bool.and_false _)

/-- Settles O48. -/
theorem statusFields : Obligations.StatusFields := by
  intro s d
  refine ⟨busWrite_status s d, ?read, ?word⟩
  case read => exact busRead_of_shown (r := .status) (by decide) (Bool.and_false _)
  case word =>
    rw [statusWord_toNat]
    cases s.code <;> rfl

/-! The BUF window -/

/-- The big-endian value of four lanes (R49). -/
theorem word4_eq_ofNat (b0 b1 b2 b3 : Byte) : word4 b0 b1 b2 b3 =
    BitVec.ofNat 32 (b0.toNat * 2 ^ 24 + b1.toNat * 2 ^ 16 + b2.toNat * 2 ^ 8 + b3.toNat) := by
  have hvalue : (word4 b0 b1 b2 b3).toNat =
      b0.toNat * 2 ^ 24 + b1.toNat * 2 ^ 16 + b2.toNat * 2 ^ 8 + b3.toNat := by
    simp only [word4, toNat_append_eq_mul_add]
    omega
  rw [← hvalue, BitVec.ofNat_toNat, BitVec.setWidth_eq]

theorem writeBufWord_of_idle {s : State} (h : s.busy = false) (k : Nat) (d : Word) :
    s.writeBufWord k d = { s with buf := s.buf.writeBytes (4 * k) (be32 d) } := by
  rw [State.writeBufWord, h, if_neg Bool.false_ne_true]

section
variable {s : State} {k : Nat}

/-- A written word is read without a free value. -/
theorem readBufWord_of_written {b0 b1 b2 b3 : Byte} (h : s.buf.readBytes (4 * k) 4 = some [b0, b1, b2, b3]) :
    s.readBufWord k = { s with resp := .data (word4 b0 b1 b2 b3) } := by
  have lane (i : Nat) (hi : i < [b0, b1, b2, b3].length) (draw : Nat) :
      s.bufByte (4 * k + i) draw = [b0, b1, b2, b3][i] := by
    rw [State.bufByte, Memory.readBytes_get h hi, Option.getD_some]
  have h0 : s.bufByte (4 * k) s.draws = b0 := lane 0 (by simp) _
  have h1 : s.bufByte (4 * k + 1) (s.draws + 1) = b1 := lane 1 (by simp) _
  have h2 : s.bufByte (4 * k + 2) (s.draws + 2) = b2 := lane 2 (by simp) _
  have h3 : s.bufByte (4 * k + 3) (s.draws + 3) = b3 := lane 3 (by simp) _
  have hwritten : s.bufWordWritten k = true := by rw [State.bufWordWritten, h, Option.isSome_some]
  rw [State.readBufWord, h0, h1, h2, h3, if_pos hwritten]

/-- A word with an unwritten byte draws four free values. -/
theorem readBufWord_of_unwritten {j : Nat} (hj : j < 4) (h : s.buf.read (4 * k + j) = none) :
    s.readBufWord k = { s with
      resp := .data (word4 (s.bufByte (4 * k) s.draws) (s.bufByte (4 * k + 1) (s.draws + 1))
        (s.bufByte (4 * k + 2) (s.draws + 2)) (s.bufByte (4 * k + 3) (s.draws + 3)))
      draws := s.draws + 4 } := by
  have hread : s.buf.readBytes (4 * k) 4 = none :=
    Memory.readBytes_eq_none_iff.2 ⟨4 * k + j, by omega, by omega, h⟩
  have hunwritten : s.bufWordWritten k = false := by rw [State.bufWordWritten, hread, Option.isSome_none]
  rw [State.readBufWord, hunwritten, if_neg Bool.false_ne_true]

end

/-- Settles O42: the window offset decodes to its word, whose four bytes are the lanes. -/
theorem bufWindowLanes : Obligations.BufWindowLanes := by
  intro s k hwf hk hidle
  have hoff : (0x1000 + 4 * k) % 4 = 0 := by omega
  have htarget : target s.params (0x1000 + 4 * k) = .bufWord k := target_bufWord hwf hk
  have hread : s.busRead (0x1000 + 4 * k) 32 = s.readBufWord k := by
    rw [busRead_bufWord hoff htarget, hidle, if_neg Bool.false_ne_true]
  refine ⟨fun d => ?stored, fun b0 b1 b2 b3 hbytes => ?written, ?unwritten⟩
  case stored =>
    obtain ⟨h0, h1, h2, h3⟩ := Memory.read_writeBytes_be32 s.buf (4 * k) d
    rw [busWrite_bufWord hoff htarget, writeBufWord_of_idle hidle]
    exact ⟨_, rfl, rfl, h0, h1, h2, h3, fun a ha => Memory.read_writeBytes_outside ha⟩
  case written =>
    rw [hread, readBufWord_of_written hbytes, dec32_cons4, word4_eq_ofNat]
    exact ⟨rfl, rfl⟩
  case unwritten =>
    rintro lane ⟨j, hj, hnone⟩
    rw [hread, readBufWord_of_unwritten hj hnone, word4_eq_ofNat]
    rfl

end Sys2Proof.Machine
end
